-- ==== Sys2Proof/Word.lean ====
section
/-! DEFINITION. The widths of the values the block handles (spec R10, R11): every quantity is an unsigned
bit string of a stated width, a boolean, or a finite sequence of bytes. -/

namespace Sys2Proof

/-- A byte: the unit of data and of addressing (R42, R43, R46). -/
abbrev Byte := BitVec 8

/-- A device identity on the bus, "an opaque 7-bit bus address value" (R8, R41). -/
abbrev DeviceId := BitVec 7

/-- An 8-bit register pointer, as the clock device takes (R42). -/
abbrev Pointer8 := BitVec 8

/-- A 16-bit register pointer, as the NVM device takes (R43); also the OFFSET operand (R71). -/
abbrev Pointer16 := BitVec 16

/-- A byte count: the LENGTH operand and the LEN field, 16 bits unsigned (R51, R71, R79). -/
abbrev Length := BitVec 16

end Sys2Proof
end

