-- ==== Sys2Proof/Config.lean ====
section
/-! DEFINITION. What an implementation fixes: the constants of R8, the named parameters of R9 with their constraints,
and the free values: what the spec leaves unspecified after the machine goes on. -/

namespace Sys2Proof

/-- `RAM_CAP`: the capacity of the clock device's RAM region in bytes (R8, R27). -/
def Config.ramCap : Nat := 56

/-- `NVM_CAP`: the capacity of the NVM region in bytes (R8, R27). -/
def Config.nvmCap : Nat := 4096

/-- `TIME_LEN`: the bytes read by GET_TIME (R8). -/
def Config.timeLen : Nat := 2

/-- `INIT_SS_LEN`: the bytes CLK_INIT writes to the start/stop register (R8). -/
def Config.initSsLen : Nat := 1

/-- The named parameters of R9. They are "fixed when the block is built, never written by any command" (R27). -/
structure Params where
  /-- `CLK_DEV`, the identity of the clock device. -/
  clkDev : DeviceId
  /-- `NVM_DEV`, the identity of the NVM device. -/
  nvmDev : DeviceId
  /-- `RAM_BASE`, the register pointer of RAM byte 0. -/
  ramBase : Pointer8
  /-- `SS_REG`, the register pointer of the start/stop register, which is also the seconds byte. -/
  ssReg : Pointer8
  /-- `PAGE_SIZE`, the physical page size of the NVM device in bytes. -/
  pageSize : Nat
  /-- `INIT_STOP_ON_FAIL`: whether CLK_INIT skips its second transfer when the first fails (R110). -/
  initStopOnFail : Bool
  /-- `DIAG_RAM`, the "fixed diagnostic string" the host writes to the clock RAM (R164). -/
  diagRam : List Byte
  deriving DecidableEq, Repr

/-- The constraints R9 puts on the parameters. "A platform violating them is outside this specification" (D8). -/
abbrev Params.Ok (p : Params) : Prop :=
  p.clkDev ≠ p.nvmDev ∧
  p.ramBase.toNat + 55 ≤ 255 ∧
  p.ssReg.toNat + 1 ≤ 255 ∧
  ¬ (p.ramBase.toNat ≤ p.ssReg.toNat ∧ p.ssReg.toNat ≤ p.ramBase.toNat + 55) ∧
  ¬ (p.ramBase.toNat ≤ p.ssReg.toNat + 1 ∧ p.ssReg.toNat + 1 ≤ p.ramBase.toNat + 55) ∧
  p.pageSize ∣ 4096 ∧
  18 ≤ p.pageSize ∧
  p.diagRam.length < 56

/-- The "commonly used" values of R9 (G1 to G5), with the default of INIT_STOP_ON_FAIL and the DIAG_RAM of program P1
of 95_test_vectors.md. PRESUMED, unsafe: log entry 1. Only `State.reset` and the tests use them. -/
def Params.common : Params where
  clkDev := 0x68
  nvmDev := 0x50
  ramBase := 0x08
  ssReg := 0x00
  pageSize := 32
  initStopOnFail := false
  diagRam := [0x52, 0x54, 0x43, 0x5F, 0x52, 0x41, 0x4D]

/-- FREE VALUE (safe, log entry 7). An unspecified byte of draw number `k`; `i` tells the bytes of one draw apart.
Nothing constrains it: bytes after a failed or unsafe write (R96, R98, R133), bytes a read returns where R44 and R55
call them unspecified. -/
opaque Config.freeByte (k i : Nat) : Byte

/-- FREE VALUE (safe, log entry 7). COUNTING where R45 and R96 leave it unspecified, for draw number `k`. -/
opaque Config.freeFlag (k : Nat) : Bool

/-- FREE VALUE (safe, log entry 7). The fields of TIME after the reset event (R35, R160), for draw number `k`. -/
opaque Config.freeTime (k : Nat) : BitVec 14

end Sys2Proof
end

