-- ==== Sys2Proof/Syntax.lean ====
section
/-! DEFINITION. The ten rows of spec/opcode_table.json: the six commands of the block (R74, R85) and the four transfers
of the Bus Transport (R80, R85). -/

namespace Sys2Proof

/-- One constructor per row of the opcode table. `len` is LENGTH or LEN, `off` OFFSET, `dev` DEV, `reg` REG; `payload` is
the bytes that follow the word of a write (R75, R79). -/
inductive Instr where
  /-- `CLK_INIT` (R110). -/
  | clkInit
  /-- `RAM_GET` (R111). -/
  | ramGet (len : Length)
  /-- `RAM_SET` (R112). -/
  | ramSet (len : Length) (payload : List Byte)
  /-- `GET_TIME` (R113). -/
  | getTime
  /-- `NVM_GET` (R130). -/
  | nvmGet (off : Pointer16) (len : Length)
  /-- `NVM_SET` (R131). -/
  | nvmSet (off : Pointer16) (len : Length) (payload : List Byte)
  /-- `XFER_W8` (R96). -/
  | xferW8 (dev : DeviceId) (reg : Pointer8) (len : Length) (payload : List Byte)
  /-- `XFER_R8` (R97). -/
  | xferR8 (dev : DeviceId) (reg : Pointer8) (len : Length)
  /-- `XFER_W16` (R98). -/
  | xferW16 (dev : DeviceId) (reg : Pointer16) (len : Length) (payload : List Byte)
  /-- `XFER_R16` (R99). -/
  | xferR16 (dev : DeviceId) (reg : Pointer16) (len : Length)
  deriving DecidableEq, Repr

/-- The interface a word is presented at: a command word by the host to the block (R70), a descriptor to the Bus
Transport (R79). -/
inductive Port where
  /-- The host's command interface. -/
  | command
  /-- The Bus Transport's transfer interface. -/
  | transfer
  deriving DecidableEq, Repr

/-- The interface an instruction belongs to: table format `CMD` or `XFER`. -/
def Instr.port : Instr → Port
  | .clkInit => .command
  | .ramGet _ => .command
  | .ramSet _ _ => .command
  | .getTime => .command
  | .nvmGet _ _ => .command
  | .nvmSet _ _ _ => .command
  | .xferW8 _ _ _ _ => .transfer
  | .xferR8 _ _ _ => .transfer
  | .xferW16 _ _ _ _ => .transfer
  | .xferR16 _ _ _ => .transfer

end Sys2Proof
end

