-- ==== Sys2Proof/WellFormed.lean ====
section
/-! DEFINITION. When a term of `Instr` is an instruction: the payload of a write has exactly as many bytes as its length
operand says (R75, R79, R85). The widths of the operands are in their types. -/

namespace Sys2Proof

/-- R75, R85: `len(P) = L`; R79: "followed, for a write, by LEN payload bytes". -/
def Instr.wellFormed : Instr → Bool
  | .clkInit => true
  | .ramGet _ => true
  | .ramSet len payload => payload.length == len.toNat
  | .getTime => true
  | .nvmGet _ _ => true
  | .nvmSet _ len payload => payload.length == len.toNat
  | .xferW8 _ _ len payload => payload.length == len.toNat
  | .xferR8 _ _ _ => true
  | .xferW16 _ _ len payload => payload.length == len.toNat
  | .xferR16 _ _ _ => true

end Sys2Proof
end

