-- ==== Sys2Proof/Decode.lean ====
section
/-! DEFINITION. The decoder, total on any bytes and refusing by name, and the encoder (R70 to R76, R79 to R82). A command
word is carried as 5 bytes, most significant first (R72); a descriptor, for which the spec gives no carriage in bytes, as
6 bytes, most significant first, its 7 unused high bits zero (DESIGN CHOICE, safe, log entry 11). The payload follows. -/

namespace Sys2Proof

/-- Why bytes are no instruction. -/
inductive DecodeError where
  /-- Fewer bytes than the word, or than the word and its payload (R82). -/
  | truncated
  /-- An OPC other than 0x01 to 0x06 (R76). -/
  | reservedOpcode
  /-- A nonzero OFFSET in CLK_INIT, RAM_GET, RAM_SET or GET_TIME (R76). -/
  | offsetNotZero
  /-- A nonzero LENGTH in CLK_INIT or GET_TIME (R76). -/
  | lengthNotZero
  /-- A descriptor with W16 = 0 and REG[15:8] nonzero (R81). -/
  | reservedRegister
  /-- A nonzero bit above bit 40 of a descriptor's 6 bytes (log entry 11). -/
  | descriptorPadding
  deriving DecidableEq, Repr

/-- The more significant byte of a 16-bit field. -/
def highByte (v : BitVec 16) : Byte := v.extractLsb' 8 8

/-- The less significant byte of a 16-bit field. -/
def lowByte (v : BitVec 16) : Byte := v.extractLsb' 0 8

/-- A 16-bit field from its bytes, most significant first (R72). -/
def joinBytes (hi lo : Byte) : BitVec 16 := hi ++ lo

/-- Whether `bs` has `n` bytes or more. -/
def hasBytes : Nat → List Byte → Bool
  | 0, _ => true
  | n + 1, bs =>
    match bs with
    | [] => false
    | _ :: rest => hasBytes n rest

/-- The payload of a write: exactly `len` bytes, and what follows them (R75, R79). -/
def takePayload (len : Length) (bs : List Byte) : Except DecodeError (List Byte × List Byte) :=
  if hasBytes len.toNat bs then .ok (bs.take len.toNat, bs.drop len.toNat) else .error .truncated

/-- A command word's fields to a command (R74, R76): OPC, OFFSET and LENGTH, then the bytes that follow the word. -/
def decodeCommandFields (opc : Byte) (off : Pointer16) (len : Length) (rest : List Byte) :
    Except DecodeError (Instr × List Byte) :=
  match opc.toNat with
  | 1 =>
    if off ≠ 0 then .error .offsetNotZero
    else if len ≠ 0 then .error .lengthNotZero
    else .ok (.clkInit, rest)
  | 2 => if off ≠ 0 then .error .offsetNotZero else .ok (.ramGet len, rest)
  | 3 =>
    if off ≠ 0 then .error .offsetNotZero
    else match takePayload len rest with
      | .ok (p, r) => .ok (.ramSet len p, r)
      | .error e => .error e
  | 4 =>
    if off ≠ 0 then .error .offsetNotZero
    else if len ≠ 0 then .error .lengthNotZero
    else .ok (.getTime, rest)
  | 5 => .ok (.nvmGet off len, rest)
  | 6 =>
    match takePayload len rest with
      | .ok (p, r) => .ok (.nvmSet off len p, r)
      | .error e => .error e
  | _ => .error .reservedOpcode

/-- The bytes of a command stream: byte 0 is OPC, bytes 1 and 2 OFFSET, bytes 3 and 4 LENGTH (R72). -/
def decodeCommand : List Byte → Except DecodeError (Instr × List Byte)
  | opc :: o1 :: o0 :: l1 :: l0 :: rest =>
    decodeCommandFields opc (joinBytes o1 o0) (joinBytes l1 l0) rest
  | _ => .error .truncated

/-- A descriptor's fields to a transfer (R79, R80, R81). -/
def decodeDescriptorFields (w16 : Bool) (dev : DeviceId) (rnw : Bool) (reg : Pointer16) (len : Length)
    (rest : List Byte) : Except DecodeError (Instr × List Byte) :=
  if w16 then
    if rnw then .ok (.xferR16 dev reg len, rest)
    else match takePayload len rest with
      | .ok (p, r) => .ok (.xferW16 dev reg len p, r)
      | .error e => .error e
  else if highByte reg ≠ 0 then .error .reservedRegister
  else
    if rnw then .ok (.xferR8 dev (lowByte reg) len, rest)
    else match takePayload len rest with
      | .ok (p, r) => .ok (.xferW8 dev (lowByte reg) len p, r)
      | .error e => .error e

/-- The bytes of a descriptor stream: byte 0 is W16 under seven zero bits, byte 1 is DEV and RNW, bytes 2 and 3 REG,
bytes 4 and 5 LEN. -/
def decodeDescriptor : List Byte → Except DecodeError (Instr × List Byte)
  | w :: dr :: r1 :: r0 :: l1 :: l0 :: rest =>
    if 2 ≤ w.toNat then .error .descriptorPadding
    else decodeDescriptorFields (w.getLsbD 0) (dr.extractLsb' 1 7) (dr.getLsbD 0) (joinBytes r1 r0) (joinBytes l1 l0) rest
  | _ => .error .truncated

/-- The instruction at the head of a stream of the given interface, and the bytes after it. -/
def decode (p : Port) (bs : List Byte) : Except DecodeError (Instr × List Byte) :=
  match p with
  | .command => decodeCommand bs
  | .transfer => decodeDescriptor bs

/-- The 5 bytes of a command word (R71, R72). -/
def commandBytes (opc : Byte) (off : Pointer16) (len : Length) : List Byte :=
  [opc, highByte off, lowByte off, highByte len, lowByte len]

/-- The 6 bytes of a descriptor (R79; carriage: log entry 11). -/
def descriptorBytes (w16 : Bool) (dev : DeviceId) (rnw : Bool) (reg : Pointer16) (len : Length) : List Byte :=
  [(BitVec.ofBool w16).setWidth 8, dev ++ BitVec.ofBool rnw, highByte reg, lowByte reg, highByte len, lowByte len]

/-- The bytes of an instruction: its word and, for a write, its payload (R72, R74, R79, R80). -/
def Instr.encode : Instr → List Byte
  | .clkInit => commandBytes 0x01 0 0
  | .ramGet len => commandBytes 0x02 0 len
  | .ramSet len payload => commandBytes 0x03 0 len ++ payload
  | .getTime => commandBytes 0x04 0 0
  | .nvmGet off len => commandBytes 0x05 off len
  | .nvmSet off len payload => commandBytes 0x06 off len ++ payload
  | .xferW8 dev reg len payload => descriptorBytes false dev false (reg.setWidth 16) len ++ payload
  | .xferR8 dev reg len => descriptorBytes false dev true (reg.setWidth 16) len
  | .xferW16 dev reg len payload => descriptorBytes true dev false reg len ++ payload
  | .xferR16 dev reg len => descriptorBytes true dev true reg len

/-- `n` bytes of the number `w`, most significant first. -/
def numberBytes (w : Nat) : Nat → List Byte
  | 0 => []
  | n + 1 => BitVec.ofNat 8 (w / 256 ^ n) :: numberBytes w n

/-- The interface of a table row by its width: 40 bits is a command word, more is a descriptor. -/
def tablePort (nbits : Nat) : Port := if nbits ≤ 40 then .command else .transfer

/-- The payload a table word asks for, all zero: as many bytes as its length field, for a write only. -/
def tablePayload (p : Port) (w : Nat) : List Byte :=
  match p with
  | .command =>
    if w / 2 ^ 32 % 256 = 3 ∨ w / 2 ^ 32 % 256 = 6 then List.replicate (w % 2 ^ 16) 0 else []
  | .transfer => if w / 2 ^ 32 % 2 = 0 then List.replicate (w % 2 ^ 16) 0 else []

/-- The bytes of the instruction whose bits are `w`, as the table numbers them: bit 0 is the least significant bit of the
command word or the descriptor. -/
def tableBytes (nbits w : Nat) : List Byte :=
  numberBytes w (if nbits ≤ 40 then 5 else 6) ++ tablePayload (tablePort nbits) w

/-- The instruction the decoder reads from the bits `w` of a table row of `nbits` bits. -/
def decodeTableWord (nbits w : Nat) : Option Instr :=
  match decode (tablePort nbits) (tableBytes nbits w) with
  | .ok (i, _) => some i
  | .error _ => none

end Sys2Proof
end

