-- ==== Sys2Proof/Machine/State.lean ====
section
/-! DEFINITION. The state as plain data: the block (R24 to R29), the environment (R30 to R36), the reference host (R163),
and the interfaces between them as sequences of events (D1). -/

namespace Sys2Proof.Machine

/-- Memory as (address, byte) pairs in one canonical form (`Memory.wf`): addresses strictly rising, none outside the
region, no entry equal to `Memory.unlisted`. -/
abbrev Memory := List Host.Cell

/-- What a byte that nothing has written reads as. R35 gives none ("unspecified, any value"): DESIGN CHOICE, unsafe, log
entry 3. -/
def Memory.unlisted : Byte := 0x00

/-- `Memory.wf` from address `lo` on. -/
def Memory.wfFrom (lo size : Nat) : Memory → Bool
  | [] => true
  | (a, v) :: m => decide (lo ≤ a) && decide (a < size) && decide (v ≠ Memory.unlisted) && wfFrom (a + 1) size m

/-- The canonical form of a memory of `size` bytes. -/
def Memory.wf (size : Nat) (m : Memory) : Bool := m.wfFrom 0 size

/-- TIME, the block's one result register, in its four fields (R24). -/
structure TimeReg where
  /-- `TIME.ST`, bits [13:11]: seconds, tens digit. -/
  st : BitVec 3
  /-- `TIME.SO`, bits [10:7]: seconds, ones digit. -/
  so : BitVec 4
  /-- `TIME.MT`, bits [6:4]: minutes, tens digit. -/
  mt : BitVec 3
  /-- `TIME.MO`, bits [3:0]: minutes, ones digit. -/
  mo : BitVec 4
  deriving DecidableEq, Repr

/-- The clock device (R31, R32). -/
structure ClockDevice where
  /-- `RAM`, keyed 0 to 55 (R31). -/
  ram : Memory
  /-- `SEC`, the seconds byte as the running counter last showed it (R32). -/
  sec : Byte
  /-- `MIN`, the minutes byte (R32). -/
  min : Byte
  /-- `COUNTING` (R32). No rule of the block reads it. -/
  counting : Bool
  deriving DecidableEq, Repr

/-- A transfer as the block hands it to the Bus Transport: the fields of the descriptor (R79) and the payload. -/
structure Xfer where
  /-- `W16`: the register pointer has 16 bits. -/
  w16 : Bool
  /-- `DEV`. -/
  dev : DeviceId
  /-- `RNW`: a read from the device. -/
  rnw : Bool
  /-- `REG`. -/
  reg : Pointer16
  /-- `LEN`. -/
  len : Length
  /-- The bytes of a write; empty for a read. -/
  payload : List Byte
  deriving DecidableEq, Repr

/-- The three outcomes of a transfer (R95). -/
inductive XferOutcome where
  /-- The transfer succeeded. -/
  | ok
  /-- The transfer failed. -/
  | fail
  /-- The transfer never completes. -/
  | never
  deriving DecidableEq, Repr

/-- One move of the environment at a transfer: the outcome, a free choice (R105), and the values the running counter
has brought SEC and MIN to by then, drawn freely (R32, R52). -/
structure Reply where
  /-- The outcome of the transfer. -/
  outcome : XferOutcome
  /-- The seconds byte at this transfer. -/
  sec : Byte
  /-- The minutes byte at this transfer. -/
  min : Byte
  deriving DecidableEq, Repr

/-- What the Bus Transport handed back for one transfer (R95): success or failure, and the bytes of a successful read. -/
structure Answer where
  /-- The transfer succeeded. -/
  ok : Bool
  /-- The bytes read; empty for a write and for a failure. -/
  data : List Byte
  deriving DecidableEq, Repr

/-- Who waits for a transfer, and what it does with the answer. -/
inductive Owner where
  /-- Nobody in the block: a transfer handed to the Bus Transport by itself (R96 to R99). -/
  | bare
  /-- CLK_INIT, at its first transfer (R110). -/
  | clkInitRam
  /-- CLK_INIT, at its second transfer; `firstOk` says how the first ended (R110). -/
  | clkInitStart (firstOk : Bool)
  /-- One of RAM_GET, RAM_SET, NVM_GET, NVM_SET (R94). -/
  | buffer
  /-- GET_TIME (R113). -/
  | getTime
  deriving DecidableEq, Repr

/-- The transfer in flight (R36) and who waits for it. -/
structure InFlight where
  /-- The transfer. -/
  xfer : Xfer
  /-- Who waits for it. -/
  owner : Owner
  deriving DecidableEq, Repr

/-- The status of a response (R78). -/
inductive Status where
  /-- `OK`, code 0. -/
  | ok
  /-- `BOUNDS_ERR`, code 1. -/
  | boundsErr
  /-- `TRANSPORT_ERR`, code 2. -/
  | transportErr
  deriving DecidableEq, Repr

/-- The response `(STATUS, D)` of a command (R77). -/
structure Response where
  /-- `STATUS`. -/
  status : Status
  /-- `D`. -/
  data : List Byte
  deriving DecidableEq, Repr

/-- The five states of the reference host, the Sequencer (R163). -/
inductive SeqState where
  /-- 0, Bus-Init. -/
  | busInit
  /-- 1, Clock-Init. -/
  | clockInit
  /-- 2, Self-Test-Write. -/
  | selfTestWrite
  /-- 3, Self-Test-Read-Verify. -/
  | selfTestReadVerify
  /-- 4, Poll-Loop. -/
  | pollLoop
  deriving DecidableEq, Repr

/-- The whole machine. -/
@[ext]
structure State where
  /-- The hardwired constants (R27) and the other parameters of R9. -/
  params : Params
  /-- `TIME` (R24). -/
  time : TimeReg
  /-- `TVALID` (R25). -/
  tvalid : Bool
  /-- `BUSY` (R26). -/
  busy : Bool
  /-- The transfer in flight, at most one (R36). -/
  inFlight : Option InFlight
  /-- The clock device: `RAM`, `SEC`, `MIN`, `COUNTING` (R30 to R32). -/
  clock : ClockDevice
  /-- `NVM`, keyed 0 to 4095 (R33). -/
  nvm : Memory
  /-- The reference host's state (R163). -/
  host : SeqState
  /-- The reset input: when set, the next step is the reset event (R160). -/
  powerOn : Bool
  /-- The bytes of the commands the host has yet to present, first byte first (R70, R72). -/
  commands : List Byte
  /-- The bytes of descriptors handed to the Bus Transport from outside the block (log entry 11). -/
  descriptors : List Byte
  /-- The environment's coming moves, oldest first (R105, log entry 5). -/
  replies : List Reply
  /-- Every transfer handed to the Bus Transport so far, oldest first (R79). -/
  issued : List Xfer
  /-- Every answer the Bus Transport has given so far, oldest first (R95). -/
  returned : List Answer
  /-- Every response the block has presented so far, oldest first (R77). -/
  responses : List Response
  /-- The model's own counter: the number of the last draw, which picks the free values (log entry 7). -/
  draws : Nat
  deriving DecidableEq, Repr

/-- The faults of the machine: none. "An error is not a trap" (R145); the two errors are responses (R140), and the hang
is a state that does not change (R155, log entry 8). Nobody raises a fault, so nothing is lost by it: safe. -/
inductive Fault where
  deriving DecidableEq, Repr

/-- Why the model gives no meaning. -/
inductive Refusal where
  /-- An instruction without a meaning yet; raised by no arm. Safe. -/
  | notModelled (mnemonic : String)
  /-- The step found a reserved or incomplete word at an interface: "a model refuses it" (R76, R81, R82). Raised by `step`
  only. Safe: nothing is claimed of what the hardware does with it. -/
  | invalidWord (reason : DecodeError)
  deriving DecidableEq, Repr

/-- The machine right after the first power-up (R35, R160): BUSY = 0, TVALID = 0, the host in Bus-Init. What R35 leaves
unspecified has the values of log entries 1 to 4; no event has happened at any interface. -/
def State.reset : State where
  params := Params.common
  time := { st := 0, so := 0, mt := 0, mo := 0 }
  tvalid := false
  busy := false
  inFlight := none
  clock := { ram := [], sec := 0, min := 0, counting := false }
  nvm := []
  host := .busInit
  powerOn := false
  commands := []
  descriptors := []
  replies := []
  issued := []
  returned := []
  responses := []
  draws := 0

end Sys2Proof.Machine
end

