-- ==== Sys2Proof/Machine/Flags.lean ====
section
/-! DEFINITION. The computations of the block (R106): the bounds check, the BCD decoder, the packing of TIME, the status
codes; and the helper `bcdToBin` (R116), which no command computes. -/

namespace Sys2Proof.Machine

/-- `BoundsOK(L, cap) = (L < cap)`, strict, on unsigned integers; `L` is not truncated (R91, R106). -/
def boundsOk (len : Length) (cap : Nat) : Bool := decide (len.toNat < cap)

/-- `BcdSplit`, the BCD decoder: `tens = b[6:4]`, `ones = b[3:0]`; bit 7 is ignored and any nibble passes (R114, R115). -/
def bcdSplit (b : Byte) : BitVec 3 × BitVec 4 := (b.extractLsb' 4 3, b.extractLsb' 0 4)

/-- TIME as GET_TIME decodes it from the seconds byte and the minutes byte (R113). -/
def TimeReg.ofBytes (sec min : Byte) : TimeReg :=
  { st := (bcdSplit sec).1, so := (bcdSplit sec).2, mt := (bcdSplit min).1, mo := (bcdSplit min).2 }

/-- TIME as one 14-bit value (R24). -/
def TimeReg.packed (t : TimeReg) : BitVec 14 := t.st ++ t.so ++ t.mt ++ t.mo

/-- The four fields of a 14-bit TIME (R24). -/
def TimeReg.unpack (v : BitVec 14) : TimeReg :=
  { st := v.extractLsb' 11 3, so := v.extractLsb' 7 4, mt := v.extractLsb' 4 3, mo := v.extractLsb' 0 4 }

/-- `BcdToBin(tens, ones) = 10 * tens + ones`, 7 bits, outside the block's state and outputs (R116). -/
def bcdToBin (tens : BitVec 3) (ones : BitVec 4) : BitVec 7 := 10 * tens.setWidth 7 + ones.setWidth 7

/-- The 2-bit codes of STATUS (R78); 3 is never produced. -/
def Status.code : Status → BitVec 2
  | .ok => 0
  | .boundsErr => 1
  | .transportErr => 2

end Sys2Proof.Machine
end

