-- ==== Sys2Proof/Machine/Operands.lean ====
section
/-! DEFINITION. The address decoder and the register-width multiplexer: the transfer each command issues (R90, R92, R93,
R109), and the 41-bit descriptor (R79). -/

namespace Sys2Proof.Machine

/-- `zext_16` of an 8-bit register pointer (R92, R106). -/
def zext16 (c : Pointer8) : Pointer16 := c.setWidth 16

/-- The 41-bit descriptor `XD` of a transfer (R79). -/
def Xfer.descriptor (x : Xfer) : BitVec 41 :=
  BitVec.ofBool x.w16 ++ x.dev ++ BitVec.ofBool x.rnw ++ x.reg ++ x.len

/-- A transfer to the clock device: `W16 = 0`, `REG = zext_16(c)` (R92), addressing mode *Constant* (R109). -/
def clockXfer (p : Params) (rnw : Bool) (c : Pointer8) (len : Length) (payload : List Byte) : Xfer :=
  { w16 := false, dev := p.clkDev, rnw := rnw, reg := zext16 c, len := len, payload := payload }

/-- A transfer to the NVM device: `W16 = 1`, `REG = OFFSET` unchanged (R92, R132), addressing mode *Absolute* (R109). -/
def nvmXfer (p : Params) (rnw : Bool) (off : Pointer16) (len : Length) (payload : List Byte) : Xfer :=
  { w16 := true, dev := p.nvmDev, rnw := rnw, reg := off, len := len, payload := payload }

/-- R90, CLK_INIT, first transfer. -/
def clkInitRamXfer (p : Params) : Xfer :=
  clockXfer p false p.ramBase (BitVec.ofNat 16 Config.ramCap) (List.replicate Config.ramCap 0)

/-- R90, CLK_INIT, second transfer. -/
def clkInitStartXfer (p : Params) : Xfer :=
  clockXfer p false p.ssReg (BitVec.ofNat 16 Config.initSsLen) (List.replicate Config.initSsLen 0)

/-- R90, RAM_GET. -/
def ramGetXfer (p : Params) (len : Length) : Xfer := clockXfer p true p.ramBase len []

/-- R90, RAM_SET. -/
def ramSetXfer (p : Params) (len : Length) (payload : List Byte) : Xfer := clockXfer p false p.ramBase len payload

/-- R90, GET_TIME. -/
def getTimeXfer (p : Params) : Xfer := clockXfer p true p.ssReg (BitVec.ofNat 16 Config.timeLen) []

/-- R90, NVM_GET. -/
def nvmGetXfer (p : Params) (off : Pointer16) (len : Length) : Xfer := nvmXfer p true off len []

/-- R90, NVM_SET. -/
def nvmSetXfer (p : Params) (off : Pointer16) (len : Length) (payload : List Byte) : Xfer :=
  nvmXfer p false off len payload

/-- The transfer of XFER_W8 (R80, R96). -/
def xferW8Xfer (dev : DeviceId) (reg : Pointer8) (len : Length) (payload : List Byte) : Xfer :=
  { w16 := false, dev := dev, rnw := false, reg := zext16 reg, len := len, payload := payload }

/-- The transfer of XFER_R8 (R80, R97). -/
def xferR8Xfer (dev : DeviceId) (reg : Pointer8) (len : Length) : Xfer :=
  { w16 := false, dev := dev, rnw := true, reg := zext16 reg, len := len, payload := [] }

/-- The transfer of XFER_W16 (R80, R98). -/
def xferW16Xfer (dev : DeviceId) (reg : Pointer16) (len : Length) (payload : List Byte) : Xfer :=
  { w16 := true, dev := dev, rnw := false, reg := reg, len := len, payload := payload }

/-- The transfer of XFER_R16 (R80, R99). -/
def xferR16Xfer (dev : DeviceId) (reg : Pointer16) (len : Length) : Xfer :=
  { w16 := true, dev := dev, rnw := true, reg := reg, len := len, payload := [] }

end Sys2Proof.Machine
end

