-- ==== Sys2Proof/Machine/Ops.lean ====
section
/-! DEFINITION. The operations every meaning shares: memory (R44, R45), the four transfers of the Bus Transport (R95 to
R105), presenting a response and raising an error (R77, R145), accepting a command (R70, R21), the skeleton of the buffer
commands (R94) and the completion of a waiting command. -/

namespace Sys2Proof.Machine

/-! ### Memory -/

/-- The byte at address `p`. -/
def Memory.read : Memory → Nat → Byte
  | [], _ => Memory.unlisted
  | (a, v) :: m, p => if a = p then v else Memory.read m p

/-- `m` with byte `b` at address `p`, in canonical form. -/
def Memory.write : Memory → Nat → Byte → Memory
  | [], p, b => if b = Memory.unlisted then [] else [(p, b)]
  | (a, v) :: m, p, b =>
    if p < a then (if b = Memory.unlisted then (a, v) :: m else (p, b) :: (a, v) :: m)
    else if p = a then (if b = Memory.unlisted then m else (p, b) :: m)
    else (a, v) :: Memory.write m p b

/-- The `n` bytes from address `p` up, lowest first (R46). -/
def Memory.readBytes (m : Memory) (p n : Nat) : List Byte := (List.range n).map fun i => m.read (p + i)

/-- `m` with the bytes `bs` from address `p` up, byte 0 at `p` (R46). -/
def Memory.writeBytes : Memory → Nat → List Byte → Memory
  | m, _, [] => m
  | m, p, b :: bs => Memory.writeBytes (m.write p b) (p + 1) bs

/-- `n` free bytes of draw number `k`. -/
def freeBytes (k n : Nat) : List Byte := (List.range n).map (Config.freeByte k)

/-- A memory of `size` bytes whose every byte is unspecified. (Irreducible: no elaborator should ever unroll its bytes.) -/
@[irreducible] def Memory.allFree (size k : Nat) : Memory := Memory.writeBytes [] 0 (freeBytes k size)

/-! ### The clock device (R42, R44, R45) -/

/-- Pointer `p` of `CLK` is a RAM byte: `RAM_BASE <= p <= RAM_BASE+55` (R42). -/
def Params.inRam (c : Params) (p : Nat) : Bool := decide (c.ramBase.toNat ≤ p) && decide (p ≤ c.ramBase.toNat + 55)

/-- The byte a read of pointer `p` of `CLK` returns (R44). At a pointer the spec does not describe: a free byte. -/
def ClockDevice.byteAt (d : ClockDevice) (c : Params) (k p : Nat) : Byte :=
  if Params.inRam c p then d.ram.read (p - c.ramBase.toNat)
  else if p = c.ssReg.toNat then d.sec
  else if p = c.ssReg.toNat + 1 then d.min
  else Config.freeByte k p

/-- `MemRead(CLK, p, n)` (R44). -/
def ClockDevice.read (d : ClockDevice) (c : Params) (k p n : Nat) : List Byte :=
  (List.range n).map fun i => d.byteAt c k (p + i)

/-- Every one of the `n` pointers from `p` up is a RAM byte. -/
def Params.allInRam (c : Params) (p n : Nat) : Bool :=
  decide (n = 0) || (decide (c.ramBase.toNat ≤ p) && decide (p + n ≤ c.ramBase.toNat + Config.ramCap))

/-- SS_REG is one of the `n` pointers from `p` up. -/
def Params.coversSs (c : Params) (p n : Nat) : Bool := decide (p ≤ c.ssReg.toNat) && decide (c.ssReg.toNat < p + n)

/-- The RAM after the bytes `bs` are written from pointer `p` of `CLK` up: those at a RAM pointer are stored, the others
leave it alone (R31, R45). -/
def Params.storeRam (c : Params) : Memory → Nat → List Byte → Memory
  | m, _, [] => m
  | m, p, b :: bs => Params.storeRam c (if Params.inRam c p then m.write (p - c.ramBase.toNat) b else m) (p + 1) bs

/-- COUNTING after a successful write of `bs` from pointer `p` up: true when it stores 0x00 at SS_REG, whatever its other
bytes are (R32, D20); as it was when every pointer is a RAM byte; unspecified otherwise: another byte at SS_REG, or
without SS_REG some pointer whose effect R45 leaves unspecified (log entry 14), one past 255 among them (log entry 13). -/
def ClockDevice.countingAfter (d : ClockDevice) (c : Params) (k p : Nat) (bs : List Byte) : Bool :=
  if Params.allInRam c p bs.length then d.counting
  else if p ≤ c.ssReg.toNat ∧ bs[c.ssReg.toNat - p]? = some 0 then true
  else Config.freeFlag k

/-- `MemWrite(CLK, p, len(bs), bs)` (R45). -/
def ClockDevice.write (c : Params) (k : Nat) (d : ClockDevice) (p : Nat) (bs : List Byte) : ClockDevice :=
  { d with ram := Params.storeRam c d.ram p bs, counting := d.countingAfter c k p bs }

/-- What a failed write of `n` bytes at pointer `p` leaves (R96): the RAM bytes it addressed are unspecified, and COUNTING too
when SS_REG is among them. -/
def ClockDevice.spoil (c : Params) (k : Nat) (d : ClockDevice) (p n : Nat) : ClockDevice :=
  { d with
    ram := Params.storeRam c d.ram p (freeBytes k n)
    counting := if Params.coversSs c p n then Config.freeFlag k else d.counting }

/-- RAM and COUNTING wholly unspecified: after a write with a 16-bit pointer (log entry 12). -/
def ClockDevice.allFree (d : ClockDevice) (k : Nat) : ClockDevice :=
  { d with ram := Memory.allFree Config.ramCap k, counting := Config.freeFlag k }

/-! ### The NVM device (R43, R44, R45, R133) -/

/-- A write of `n` bytes at pointer `a` is *safe*: in range and within one page (R45, R133). -/
def Params.safeWrite (c : Params) (a n : Nat) : Bool :=
  decide (a + n ≤ Config.nvmCap) && decide (a / c.pageSize = (a + n - 1) / c.pageSize)

/-- `MemRead(NVM, a, n)` (R44): past the end of the range every byte is unspecified (R55). -/
def nvmRead (nvm : Memory) (k a n : Nat) : List Byte :=
  if a + n ≤ Config.nvmCap then nvm.readBytes a n else freeBytes k n

/-- The NVM after a write transfer of `n` bytes at pointer `a` that ended with `ok` (R45) or failed (R98). -/
def nvmWrite (c : Params) (nvm : Memory) (k a n : Nat) (ok : Bool) (bs : List Byte) : Memory :=
  if n = 0 then nvm
  else if Params.safeWrite c a n then nvm.writeBytes a (if ok then bs else freeBytes k n)
  else Memory.allFree Config.nvmCap k

/-! ### The four transfers (R95 to R105) -/

/-- The bytes of a write: as many of the payload as `LEN` says (a well-formed write has no others). -/
def Xfer.bytes (x : Xfer) : List Byte := x.payload.take x.len.toNat

/-- The bytes a successful read returns (R97, R99). From a device or with a pointer width the spec does not describe:
`LEN` free bytes (log entry 12). -/
def Xfer.fetch (x : Xfer) (s : State) : List Byte :=
  if x.w16 = false ∧ x.dev = s.params.clkDev then s.clock.read s.params s.draws x.reg.toNat x.len.toNat
  else if x.w16 = true ∧ x.dev = s.params.nvmDev then nvmRead s.nvm s.draws x.reg.toNat x.len.toNat
  else freeBytes s.draws x.len.toNat

/-- The clock device after a write transfer to it (R96). A zero-length write changes nothing. A write with a 16-bit pointer
leaves RAM and COUNTING unspecified (log entry 12). -/
def Xfer.clockAfter (x : Xfer) (ok : Bool) (s : State) : ClockDevice :=
  if x.len.toNat = 0 then s.clock
  else if x.w16 = true then s.clock.allFree s.draws
  else if ok then ClockDevice.write s.params s.draws s.clock x.reg.toNat x.bytes
  else ClockDevice.spoil s.params s.draws s.clock x.reg.toNat x.len.toNat

/-- The NVM after a write transfer to the NVM device (R98). A write with an 8-bit pointer leaves all of it unspecified
(log entry 12). -/
def Xfer.nvmAfter (x : Xfer) (ok : Bool) (s : State) : Memory :=
  if x.len.toNat = 0 then s.nvm
  else if x.w16 = false then Memory.allFree Config.nvmCap s.draws
  else nvmWrite s.params s.nvm s.draws x.reg.toNat x.len.toNat ok x.bytes

/-- What a write transfer that succeeded or failed leaves in the peripherals (R96, R98). A transfer to any other identity
changes neither (R31, R33). -/
def Xfer.store (x : Xfer) (ok : Bool) (s : State) : State :=
  if x.dev = s.params.clkDev then { s with clock := x.clockAfter ok s }
  else if x.dev = s.params.nvmDev then { s with nvm := x.nvmAfter ok s }
  else s

/-- The environment's move at a transfer: the reply is taken, the running counter has moved SEC and MIN (R32), nothing is
in flight any more, and the next draw is due. -/
def State.receive (r : Reply) (rest : List Reply) (s : State) : State :=
  { s with
    replies := rest
    clock := { s.clock with sec := r.sec, min := r.min }
    draws := s.draws + 1
    inFlight := none }

/-- The data a transfer hands back: the bytes of a successful read, else none (R95, R102). -/
def Xfer.data (x : Xfer) (ok : Bool) (s : State) : List Byte := if x.rnw && ok then x.fetch s else []

/-- The effect of a transfer on the peripherals: none for a read, whatever its outcome (R97, R99). -/
def Xfer.effect (x : Xfer) (ok : Bool) (s : State) : State := if x.rnw then s else x.store ok s

/-- A transfer completes with success or failure: its effect takes place and its answer is handed back (R95). -/
def State.answer (x : Xfer) (r : Reply) (rest : List Reply) (ok : Bool) (s : State) : State :=
  let s' := x.effect ok (s.receive r rest)
  { s' with returned := s.returned ++ [{ ok := ok, data := x.data ok (s.receive r rest) }] }

/-- The transfer stays in flight for its owner (R36). -/
def State.hold (x : Xfer) (o : Owner) (s : State) : State := { s with inFlight := some { xfer := x, owner := o } }

/-- The transfer is handed to the Bus Transport (R79). -/
def State.handOver (x : Xfer) (s : State) : State := { s with issued := s.issued ++ [x] }

/-- An issued transfer waits for its outcome (R100). With a reply at hand its owner goes on; without one, or with the
reply `never`, it stays in flight (R36, R155). -/
def State.await (x : Xfer) (o : Owner) (finish : Bool → List Byte → State → State) (s : State) : State :=
  match s.replies with
  | [] => s.hold x o
  | r :: rest =>
    match r.outcome with
    | .never => s.hold x o
    | .ok => finish true (x.data true (s.receive r rest)) (s.answer x r rest true)
    | .fail => finish false (x.data false (s.receive r rest)) (s.answer x r rest false)

/-- `Xfer(...)`: the transfer is handed to the Bus Transport and waited for. -/
def State.issue (x : Xfer) (o : Owner) (finish : Bool → List Byte → State → State) (s : State) : State :=
  (s.handOver x).await x o finish

/-! ### Responses and errors (R77, R145) -/

/-- `complete(status, D)`: the response is presented and BUSY cleared (R77). -/
def State.complete (st : Status) (d : List Byte) (s : State) : State :=
  { s with busy := false, responses := s.responses ++ [{ status := st, data := d }] }

/-- `raise E`: the response has that status and no data, BUSY is cleared, "and that is all" (R145). -/
def State.raise (e : Status) (s : State) : State := s.complete e []

/-- The block can take a command: BUSY = 0 (R70) and no transfer outstanding (R104). -/
def State.ready (s : State) : Bool := !s.busy && s.inFlight.isNone

/-- BUSY is set (R26). -/
def State.occupy (s : State) : State := { s with busy := true }

/-- The block accepts a command and sets BUSY (R26, R70); a command presented while it cannot is not accepted and
changes nothing (D19, log entry 17). -/
def State.accept (run : State → State) (s : State) : Host.Outcome State Fault Refusal :=
  .next (if s.ready then run s.occupy else s)

/-! ### What a command does with the answer to its transfer -/

/-- A transfer handed to the Bus Transport by itself: its answer is handed back, and no command waits for it. -/
def finishBare (_ok : Bool) (_d : List Byte) (s : State) : State := s

/-- RAM_GET, RAM_SET, NVM_GET, NVM_SET (R94). -/
def finishBuffer (ok : Bool) (d : List Byte) (s : State) : State :=
  if ok then s.complete .ok d else s.raise .transportErr

/-- GET_TIME (R113): on success TIME and TVALID are written, on failure TVALID is cleared and TIME kept. -/
def finishGetTime (ok : Bool) (d : List Byte) (s : State) : State :=
  if ok then { s with time := TimeReg.ofBytes (d.getD 0 0) (d.getD 1 0), tvalid := true }.complete .ok []
  else { s with tvalid := false }.raise .transportErr

/-- CLK_INIT after its second transfer (R110). -/
def finishClkInitStart (firstOk ok : Bool) (_d : List Byte) (s : State) : State :=
  if firstOk && ok then s.complete .ok [] else s.raise .transportErr

/-- CLK_INIT after its first transfer (R110). -/
def finishClkInitRam (ok : Bool) (_d : List Byte) (s : State) : State :=
  if !ok && s.params.initStopOnFail then s.raise .transportErr
  else s.issue (clkInitStartXfer s.params) (.clkInitStart ok) (finishClkInitStart ok)

/-- What the owner of a transfer does with its answer. -/
def Owner.finish : Owner → Bool → List Byte → State → State
  | .bare => finishBare
  | .clkInitRam => finishClkInitRam
  | .clkInitStart firstOk => finishClkInitStart firstOk
  | .buffer => finishBuffer
  | .getTime => finishGetTime

/-- The skeleton of the four buffer commands after acceptance: check, then issue exactly one transfer (R94). -/
def State.buffer (cap : Nat) (len : Length) (x : Xfer) (s : State) : State :=
  if boundsOk len cap then s.issue x .buffer finishBuffer else s.raise .boundsErr

/-- A transfer handed to the Bus Transport by itself; only one may be outstanding (R104). -/
def State.bare (x : Xfer) (s : State) : Host.Outcome State Fault Refusal :=
  .next (if s.inFlight.isNone then s.issue x .bare finishBare else s)

/-- The machine goes on with the transfer in flight when its reply is at hand, and stays as it is otherwise (R155). -/
def State.resume (fl : InFlight) (s : State) : State := s.await fl.xfer fl.owner fl.owner.finish

end Sys2Proof.Machine
end

