-- ==== Sys2Proof/Machine/Clock.lean ====
section
/-! DEFINITION. The four commands that address the clock device (41_clock.md). -/

namespace Sys2Proof.Machine

/-- CLK_INIT (R110): 56 zero bytes at RAM_BASE, then one zero byte at SS_REG. -/
def execClkInit (s : State) : Host.Outcome State Fault Refusal :=
  s.accept fun s => s.issue (clkInitRamXfer s.params) .clkInitRam finishClkInitRam

/-- RAM_GET(L) (R111). -/
def execRamGet (len : Length) (s : State) : Host.Outcome State Fault Refusal :=
  s.accept fun s => s.buffer Config.ramCap len (ramGetXfer s.params len)

/-- RAM_SET(L, P) (R112). -/
def execRamSet (len : Length) (payload : List Byte) (s : State) : Host.Outcome State Fault Refusal :=
  s.accept fun s => s.buffer Config.ramCap len (ramSetXfer s.params len payload)

/-- GET_TIME (R113). -/
def execGetTime (s : State) : Host.Outcome State Fault Refusal :=
  s.accept fun s => s.issue (getTimeXfer s.params) .getTime finishGetTime

end Sys2Proof.Machine
end

