-- ==== Sys2Proof/Machine/Nvm.lean ====
section
/-! DEFINITION. The two commands that address the NVM device (42_nvm.md). -/

namespace Sys2Proof.Machine

/-- NVM_GET(OFFSET, L) (R130); OFFSET is not checked (R132). -/
def execNvmGet (off : Pointer16) (len : Length) (s : State) : Host.Outcome State Fault Refusal :=
  s.accept fun s => s.buffer Config.nvmCap len (nvmGetXfer s.params off len)

/-- NVM_SET(OFFSET, L, P) (R131); one transfer, never split (R133). -/
def execNvmSet (off : Pointer16) (len : Length) (payload : List Byte) (s : State) :
    Host.Outcome State Fault Refusal :=
  s.accept fun s => s.buffer Config.nvmCap len (nvmSetXfer s.params off len payload)

end Sys2Proof.Machine
end

