-- ==== Sys2Proof/Machine/Transport.lean ====
section
/-! DEFINITION. The four primitives of the Bus Transport run by themselves (R96 to R99): the same operation a command's
transfer runs through, with no flag of the block written. -/

namespace Sys2Proof.Machine

/-- XFER_W8 (R96). -/
def execXferW8 (dev : DeviceId) (reg : Pointer8) (len : Length) (payload : List Byte) (s : State) :
    Host.Outcome State Fault Refusal :=
  s.bare (xferW8Xfer dev reg len payload)

/-- XFER_R8 (R97). -/
def execXferR8 (dev : DeviceId) (reg : Pointer8) (len : Length) (s : State) : Host.Outcome State Fault Refusal :=
  s.bare (xferR8Xfer dev reg len)

/-- XFER_W16 (R98). -/
def execXferW16 (dev : DeviceId) (reg : Pointer16) (len : Length) (payload : List Byte) (s : State) :
    Host.Outcome State Fault Refusal :=
  s.bare (xferW16Xfer dev reg len payload)

/-- XFER_R16 (R99). -/
def execXferR16 (dev : DeviceId) (reg : Pointer16) (len : Length) (s : State) : Host.Outcome State Fault Refusal :=
  s.bare (xferR16Xfer dev reg len)

end Sys2Proof.Machine
end

