-- ==== Sys2Proof/Machine/Dispatch.lean ====
section
/-! DEFINITION. One arm per instruction, each one call of its meaning. -/

namespace Sys2Proof.Machine

/-- The meaning of an instruction. -/
def exec (i : Instr) (s : State) : Host.Outcome State Fault Refusal :=
  match i with
  | .clkInit => Sys2Proof.Machine.execClkInit s
  | .ramGet len => Sys2Proof.Machine.execRamGet len s
  | .ramSet len payload => Sys2Proof.Machine.execRamSet len payload s
  | .getTime => Sys2Proof.Machine.execGetTime s
  | .nvmGet off len => Sys2Proof.Machine.execNvmGet off len s
  | .nvmSet off len payload => Sys2Proof.Machine.execNvmSet off len payload s
  | .xferW8 dev reg len payload => Sys2Proof.Machine.execXferW8 dev reg len payload s
  | .xferR8 dev reg len => Sys2Proof.Machine.execXferR8 dev reg len s
  | .xferW16 dev reg len payload => Sys2Proof.Machine.execXferW16 dev reg len payload s
  | .xferR16 dev reg len => Sys2Proof.Machine.execXferR16 dev reg len s

end Sys2Proof.Machine
end

