-- ==== Sys2Proof/Machine/Fetch.lean ====
section
/-! DEFINITION. Where an instruction comes from: the block fetches nothing (R23, R60); the host presents bytes (R70, R72),
and a descriptor may be handed to the Bus Transport from outside (log entry 11). -/

namespace Sys2Proof.Machine

/-- The next word at an interface, with the state after its bytes are taken: a descriptor if one is there, else a command,
else nothing. -/
def State.fetch (s : State) : Option (Except DecodeError (Instr × State)) :=
  match s.descriptors, s.commands with
  | [], [] => none
  | [], bs =>
    match decodeCommand bs with
    | .ok (i, rest) => some (.ok (i, { s with commands := rest }))
    | .error e => some (.error e)
  | ds, _ =>
    match decodeDescriptor ds with
    | .ok (i, rest) => some (.ok (i, { s with descriptors := rest }))
    | .error e => some (.error e)

/-- `s` with the bytes `bs` next at the interface `p` and the block free to take them (log entry 21). -/
def State.present (p : Port) (bs : List Byte) (s : State) : State :=
  let s' := { s with powerOn := false, busy := false, inFlight := none }
  match p with
  | .command => { s' with descriptors := [], commands := bs ++ s.commands }
  | .transfer => { s' with descriptors := bs ++ s.descriptors }

end Sys2Proof.Machine
end

