-- ==== Sys2Proof/Machine/Reset.lean ====
section
/-! DEFINITION. The one reset event, power-on (R160, R161). -/

namespace Sys2Proof.Machine

/-- What an abandoned transfer leaves: a write, what a failed write leaves (R160); a read, nothing. -/
def State.abandon (s : State) : State :=
  match s.inFlight with
  | none => s
  | some fl => fl.xfer.effect false s

/-- The replies still to come after the reset event: the reply `never` of the abandoned transfer is spent. -/
def State.repliesAfterReset (s : State) : List Reply :=
  match s.inFlight, s.replies with
  | some _, r :: rest => if r.outcome = .never then rest else r :: rest
  | _, rs => rs

/-- The reset event (R160): BUSY = 0, TVALID = 0, TIME unspecified, the host in Bus-Init with nothing left to present, a
transfer in flight abandoned. The peripherals are not reset (R161). -/
def State.powerOnReset (s : State) : State :=
  { { s with draws := s.draws + 1 }.abandon with
    busy := false
    tvalid := false
    time := TimeReg.unpack (Config.freeTime (s.draws + 1))
    inFlight := none
    host := .busInit
    powerOn := false
    commands := []
    descriptors := []
    replies := s.repliesAfterReset }

end Sys2Proof.Machine
end

