-- ==== Sys2Proof/Machine/Sequencer.lean ====
section
/-! DEFINITION. The reference host, the Application Sequencer (R162 to R165): five states, unconditional transitions, and
the commands it presents in each. Its diagnostic text and heartbeat output are out of scope (R4). -/

namespace Sys2Proof.Machine

/-- The literal string written to the NVM device: 17 characters and one zero byte (R164). -/
def eepromString : List Byte :=
  [0x45, 0x45, 0x50, 0x52, 0x4F, 0x4D, 0x5F, 0x44, 0x75, 0x6D, 0x6D, 0x79, 0x5F, 0x64, 0x61, 0x74, 0x61, 0x00]

/-- The transitions, all unconditional: no status matters (R163). -/
def SeqState.succ : SeqState → SeqState
  | .busInit => .clockInit
  | .clockInit => .selfTestWrite
  | .selfTestWrite => .selfTestReadVerify
  | .selfTestReadVerify => .pollLoop
  | .pollLoop => .pollLoop

/-- The state numbers of R163. -/
def SeqState.number : SeqState → Nat
  | .busInit => 0
  | .clockInit => 1
  | .selfTestWrite => 2
  | .selfTestReadVerify => 3
  | .pollLoop => 4

/-- The commands presented in each state (R163, R164). -/
def SeqState.program (p : Params) : SeqState → List Instr
  | .busInit => []
  | .clockInit => [.clkInit]
  | .selfTestWrite =>
    [.ramSet (BitVec.ofNat 16 p.diagRam.length) p.diagRam, .nvmSet 0 18 eepromString]
  | .selfTestReadVerify => [.ramGet (BitVec.ofNat 16 p.diagRam.length), .nvmGet 0 18]
  | .pollLoop => [.getTime]

/-- The host enters its next state and places the commands of that state (R163). -/
def State.sequencerTurn (s : State) : State :=
  { s with host := s.host.succ, commands := (s.host.succ.program s.params).flatMap Instr.encode }

end Sys2Proof.Machine
end

