-- ==== Sys2Proof/Machine/Step.lean ====
section
/-! DEFINITION. One step: the reset event when its input is set; else the transfer in flight; else the next word at an
interface; else the reference host's turn. -/

namespace Sys2Proof.Machine

/-- One step of the machine (R20, R21). A block that is BUSY accepts nothing (R26). -/
def step (s : State) : Host.Outcome State Fault Refusal :=
  if s.powerOn then .next s.powerOnReset
  else
    match s.inFlight with
    | some fl => .next (s.resume fl)
    | none =>
      if s.busy then .next s
      else
        match s.fetch with
        | some (.ok (i, s')) => exec i s'
        | some (.error e) => .refused (.invalidWord e)
        | none => .next s.sequencerTurn

/-- `s` with the instruction whose table bits are `w` next at its interface. -/
def State.withFetchWord (s : State) (nbits w : Nat) : State :=
  s.present (tablePort nbits) (tableBytes nbits w)

end Sys2Proof.Machine
end

