-- ==== Sys2Proof/Safety.lean ====
section
/-! DEFINITION. The terms the statements use: what a transfer the block emits looks like (R81, R90), when a machine waits
(R155), the invariant of the machine, the opcode table as masks and patterns (R74, R80), and what "every byte outside a
range is unchanged" says. -/

namespace Sys2Proof.Machine

/-- The seven shapes of R90: the only transfers the block emits (R81). -/
def Xfer.IsBlockShape (p : Params) (x : Xfer) : Prop :=
  x = clkInitRamXfer p ∨ x = clkInitStartXfer p ∨ x = getTimeXfer p ∨
  (∃ len : Length, len.toNat < 56 ∧ x = ramGetXfer p len) ∨
  (∃ (len : Length) (bs : List Byte), len.toNat < 56 ∧ x = ramSetXfer p len bs) ∨
  (∃ (off : Pointer16) (len : Length), len.toNat < 4096 ∧ x = nvmGetXfer p off len) ∨
  (∃ (off : Pointer16) (len : Length) (bs : List Byte), len.toNat < 4096 ∧ x = nvmSetXfer p off len bs)

/-- The transfer in flight is one its owner issues (R90, R94, R110, R113). -/
def Owner.Owns (p : Params) (o : Owner) (x : Xfer) : Prop :=
  match o with
  | .bare => True
  | .clkInitRam => x = clkInitRamXfer p
  | .clkInitStart _ => x = clkInitStartXfer p
  | .getTime => x = getTimeXfer p
  | .buffer =>
    (∃ len : Length, len.toNat < 56 ∧ x = ramGetXfer p len) ∨
    (∃ (len : Length) (bs : List Byte), len.toNat < 56 ∧ x = ramSetXfer p len bs) ∨
    (∃ (off : Pointer16) (len : Length), len.toNat < 4096 ∧ x = nvmGetXfer p off len) ∨
    (∃ (off : Pointer16) (len : Length) (bs : List Byte), len.toNat < 4096 ∧ x = nvmSetXfer p off len bs)

/-- No reply is at hand: none has come, or the one due is `never` (R95, R155). -/
abbrev State.NoReply (s : State) : Prop :=
  s.replies = [] ∨ ∃ r rest, s.replies = r :: rest ∧ r.outcome = .never

/-- BUSY is 1 exactly while a command waits for its transfer (R26, R36). -/
def State.BusyIffWaiting (s : State) : Prop :=
  s.busy = true ↔ ∃ fl, s.inFlight = some fl ∧ fl.owner ≠ .bare

/-- The invariant of the machine: the parameters are ones R9 allows, both memories have their canonical form and size,
BUSY says whether a command waits, and the transfer in flight is its owner's. -/
def State.Inv (s : State) : Prop :=
  s.params.Ok ∧
  Memory.wf Config.ramCap s.clock.ram = true ∧
  Memory.wf Config.nvmCap s.nvm = true ∧
  s.BusyIffWaiting ∧
  ∀ fl, s.inFlight = some fl → fl.owner.Owns s.params fl.xfer

/-- The host may present a command and the step will take it: no reset input, BUSY = 0, nothing in flight. -/
abbrev State.Idle (s : State) : Prop :=
  s.powerOn = false ∧ s.busy = false ∧ s.inFlight = none

/-- The step runs a GET_TIME: the machine is idle and takes one from the command stream, or one waits for its transfer
(R113). -/
def State.RunsGetTime (s : State) : Prop :=
  (s.Idle ∧ s.descriptors = [] ∧ ∃ rest, decodeCommand s.commands = .ok (.getTime, rest)) ∨
  ∃ x, s.inFlight = some { xfer := x, owner := .getTime }

/-- Every byte outside the `n` bytes from `a` up reads as before. -/
def Memory.SameOutside (m m' : Memory) (a n : Nat) : Prop :=
  ∀ p, p < a ∨ a + n ≤ p → m'.read p = m.read p

/-- Every byte reads as before. -/
def Memory.SameReads (m m' : Memory) : Prop := ∀ p, m'.read p = m.read p

/-- The instructions of a list run one after the other, each to its next state. -/
def execAll : List Instr → State → Option State
  | [], s => some s
  | i :: is, s =>
    match exec i s with
    | .next t => execAll is t
    | .fault _ => none
    | .refused _ => none

/-- The `match` of an instruction's row in opcode_table.json (R74, R80). -/
def tableMatch : Instr → Nat
  | .clkInit => 0x0100000000
  | .ramGet _ => 0x0200000000
  | .ramSet _ _ => 0x0300000000
  | .getTime => 0x0400000000
  | .nvmGet _ _ => 0x0500000000
  | .nvmSet _ _ _ => 0x0600000000
  | .xferW8 _ _ _ _ => 0x00000000000
  | .xferR8 _ _ _ => 0x00100000000
  | .xferW16 _ _ _ _ => 0x10000000000
  | .xferR16 _ _ _ => 0x10100000000

/-- The `mask` of an instruction's row in opcode_table.json (R74, R80). -/
def tableMask : Instr → Nat
  | .clkInit => 0xFFFFFFFFFF
  | .ramGet _ => 0xFFFFFF0000
  | .ramSet _ _ => 0xFFFFFF0000
  | .getTime => 0xFFFFFFFFFF
  | .nvmGet _ _ => 0xFF00000000
  | .nvmSet _ _ _ => 0xFF00000000
  | .xferW8 _ _ _ _ => 0x101FF000000
  | .xferR8 _ _ _ => 0x101FF000000
  | .xferW16 _ _ _ _ => 0x10100000000
  | .xferR16 _ _ _ => 0x10100000000

/-- The transfer an XFER row stands for (R80); a command stands for none. -/
def transferOf : Instr → Option Xfer
  | .clkInit => none
  | .ramGet _ => none
  | .ramSet _ _ => none
  | .getTime => none
  | .nvmGet _ _ => none
  | .nvmSet _ _ _ => none
  | .xferW8 dev reg len payload => some (xferW8Xfer dev reg len payload)
  | .xferR8 dev reg len => some (xferR8Xfer dev reg len)
  | .xferW16 dev reg len payload => some (xferW16Xfer dev reg len payload)
  | .xferR16 dev reg len => some (xferR16Xfer dev reg len)

end Sys2Proof.Machine

namespace Sys2Proof

/-- The requested length meets or exceeds the capacity: the one cause of BOUNDS_ERR (R141). -/
def Instr.OverLimit : Instr → Prop
  | .clkInit => False
  | .ramGet len => 56 ≤ len.toNat
  | .ramSet len _ => 56 ≤ len.toNat
  | .getTime => False
  | .nvmGet _ len => 4096 ≤ len.toNat
  | .nvmSet _ len _ => 4096 ≤ len.toNat
  | .xferW8 _ _ _ _ => False
  | .xferR8 _ _ _ => False
  | .xferW16 _ _ _ _ => False
  | .xferR16 _ _ _ => False

/-- How many bytes the data of an OK response has: `L` for the two read commands, none for the others (R77). -/
def Instr.dataLength : Instr → Nat
  | .clkInit => 0
  | .ramGet len => len.toNat
  | .ramSet _ _ => 0
  | .getTime => 0
  | .nvmGet _ len => len.toNat
  | .nvmSet _ _ _ => 0
  | .xferW8 _ _ _ _ => 0
  | .xferR8 _ _ _ => 0
  | .xferW16 _ _ _ _ => 0
  | .xferR16 _ _ _ => 0

/-- What may come between a RAM_SET and the RAM_GET that reads its bytes back: everything but RAM_SET, CLK_INIT and a write
transfer to the clock device (R118). -/
def Instr.SparesRam (p : Params) : Instr → Prop
  | .clkInit => False
  | .ramGet _ => True
  | .ramSet _ _ => False
  | .getTime => True
  | .nvmGet _ _ => True
  | .nvmSet _ _ _ => True
  | .xferW8 dev _ _ _ => dev ≠ p.clkDev
  | .xferR8 _ _ _ => True
  | .xferW16 dev _ _ _ => dev ≠ p.clkDev
  | .xferR16 _ _ _ => True

/-- A write of `len` bytes at NVM pointer `off` is as long as it says, and moves no byte or is safe and touches none of the
`n` bytes from `a` up (R133). -/
def SafeBeside (p : Params) (a n : Nat) (off : Pointer16) (len : Length) (payload : List Byte) : Prop :=
  payload.length = len.toNat ∧
  (len.toNat = 0 ∨
    (Machine.Params.safeWrite p off.toNat len.toNat = true ∧ (off.toNat + len.toNat ≤ a ∨ a + n ≤ off.toNat)))

/-- What may come between a safe write and the NVM_GET that reads the `n` bytes from `a` up, with none of them written again:
everything but a write to the NVM device that is not safe, or touches one of them, or has an 8-bit pointer (R134). -/
def Instr.SparesNvm (p : Params) (a n : Nat) : Instr → Prop
  | .clkInit => True
  | .ramGet _ => True
  | .ramSet _ _ => True
  | .getTime => True
  | .nvmGet _ _ => True
  | .nvmSet off len payload => 4096 ≤ len.toNat ∨ SafeBeside p a n off len payload
  | .xferW8 dev _ len _ => dev ≠ p.nvmDev ∨ len.toNat = 0
  | .xferR8 _ _ _ => True
  | .xferW16 dev off len payload => dev ≠ p.nvmDev ∨ SafeBeside p a n off len payload
  | .xferR16 _ _ _ => True

/-- `i`, run from `s` to `t`, is a write of `len` bytes `bs` at NVM pointer `off` that succeeded: an NVM_SET that responded
OK, or a transfer XFER_W16 to the NVM device that the Bus Transport answered with success (R131, R98). -/
def Instr.StoredNvm (i : Instr) (s t : Machine.State) (off : Pointer16) (len : Length) (bs : List Byte) : Prop :=
  (i = .nvmSet off len bs ∧ t.responses = s.responses ++ [{ status := .ok, data := [] }]) ∨
  (i = .xferW16 s.params.nvmDev off len bs ∧ t.returned = s.returned ++ [{ ok := true, data := [] }])

end Sys2Proof
end

