-- ==== Sys2Proof/Certificates/Slice0/Obligations.lean ====
section
/-! DEFINITION. What is claimed of the machine: the rules of the spec that say what a command, a transfer, the reset event or
the reference host does, each as a proposition over all states. Nothing here is proved. -/

open Sys2Proof Sys2Proof.Machine

/-! ### Reset and the invariant -/

/-- 10_state.md section 4 (R35): what reset leaves where the spec gives a value. -/
def Obligations.ResetHasItsStatedValues : Prop :=
  State.reset.busy = false ∧ State.reset.tvalid = false ∧ State.reset.host = .busInit ∧ State.reset.inFlight = none

/-- The machine after reset meets the invariant; its parameters are the model's (log 1). -/
def Obligations.ResetMeetsTheInvariant : Prop := State.reset.Inv

/-- Whatever step is taken, in whatever state that meets it, the invariant holds afterwards: both memories keep their size
and canonical form, BUSY is 1 exactly while a command waits, and what is in flight is a transfer its owner issues. -/
def Obligations.StepKeepsTheInvariant : Prop :=
  ∀ s t : State, s.Inv → step s = .next t → t.Inv

/-- R27: the constants are the same before and after every step, the reset event among them. -/
def Obligations.ParametersNeverChange : Prop :=
  ∀ s t : State, step s = .next t → t.params = s.params

/-! ### Encoding -/

/-- Decoding an encoded well-formed instruction gives it back, with the bytes that follow it (R72, R75, R82). For the six
commands the bytes are the spec's (R72); for the four transfers they are the model's own 6-byte carriage of a descriptor (log
entry 11), since R79 gives 41 bits and no bytes. -/
def Obligations.DecodeOfEncodeIsTheInstruction : Prop :=
  ∀ (i : Instr) (rest : List Byte), i.wellFormed = true → decode i.port (i.encode ++ rest) = .ok (i, rest)

/-- What decodes is well formed, and its encoding is the bytes it was read from: each word has one meaning. At the transfer
port this says so of the model's own 6-byte carriage with its seven zero bits (log entry 11); R79 gives no bytes. -/
def Obligations.EncodeOfDecodeIsTheBytes : Prop :=
  ∀ (p : Port) (bs : List Byte) (i : Instr) (rest : List Byte), decode p bs = .ok (i, rest) →
    i.port = p ∧ i.wellFormed = true ∧ i.encode ++ rest = bs

/-- R74: a 40-bit word selects the row of a command when `w AND mask = match`, and a word that selects no row is reserved.
(65535 bytes may follow, so that no payload is cut short.) -/
def Obligations.CommandWordSelectsItsRow : Prop :=
  ∀ (w : Nat) (rest : List Byte), w < 2 ^ 40 → 65535 ≤ rest.length →
    (∀ j : Instr, j.port = .command →
      (w &&& tableMask j = tableMatch j ↔
        ∃ i r, decodeCommand (numberBytes w 5 ++ rest) = .ok (i, r) ∧ tableMatch i = tableMatch j)) ∧
    ((∀ j : Instr, j.port = .command → w &&& tableMask j ≠ tableMatch j) →
      ∃ e, decodeCommand (numberBytes w 5 ++ rest) = .error e)

/-- R80: a 41-bit descriptor selects the row of a transfer when `w AND mask = match`; R81: one with W16 = 0 and
REG[15:8] nonzero selects none and is reserved. -/
def Obligations.DescriptorSelectsItsRow : Prop :=
  ∀ (w : Nat) (rest : List Byte), w < 2 ^ 41 → 65535 ≤ rest.length →
    (∀ j : Instr, j.port = .transfer →
      (w &&& tableMask j = tableMatch j ↔
        ∃ i r, decodeDescriptor (numberBytes w 6 ++ rest) = .ok (i, r) ∧ tableMatch i = tableMatch j)) ∧
    ((∀ j : Instr, j.port = .transfer → w &&& tableMask j ≠ tableMatch j) →
      decodeDescriptor (numberBytes w 6 ++ rest) = .error .reservedRegister)

/-- R76: every reserved command word is refused by name: an OPC outside 0x01 to 0x06, a nonzero OFFSET where it must be
zero, a nonzero LENGTH where it must be zero. -/
def Obligations.ReservedCommandWordsAreRefused : Prop :=
  ∀ (s : State) (opc : Byte) (off : Pointer16) (len : Length) (rest : List Byte),
    s.Idle → s.descriptors = [] → s.commands = commandBytes opc off len ++ rest →
    (opc = 0 ∨ 7 ≤ opc.toNat → step s = .refused (.invalidWord .reservedOpcode)) ∧
    (1 ≤ opc.toNat ∧ opc.toNat ≤ 4 ∧ off ≠ 0 → step s = .refused (.invalidWord .offsetNotZero)) ∧
    ((opc = 1 ∨ opc = 4) ∧ off = 0 ∧ len ≠ 0 → step s = .refused (.invalidWord .lengthNotZero))

/-- Words of 95_test_vectors.md section 2.1, byte by byte, decode to the commands they stand for. -/
def Obligations.SpecWordsDecode : Prop :=
  decodeCommand [0x01, 0x00, 0x00, 0x00, 0x00] = .ok (.clkInit, []) ∧
  decodeCommand [0x02, 0x00, 0x00, 0xFF, 0xFF] = .ok (.ramGet 65535, []) ∧
  decodeCommand [0x03, 0x00, 0x00, 0x00, 0x03, 0x41, 0x42, 0x43] = .ok (.ramSet 3 [0x41, 0x42, 0x43], []) ∧
  decodeCommand [0x04, 0x00, 0x00, 0x00, 0x00] = .ok (.getTime, []) ∧
  decodeCommand [0x05, 0x0F, 0xA0, 0x00, 0xC8] = .ok (.nvmGet 4000 200, []) ∧
  decodeCommand [0x06, 0x00, 0x40, 0x00, 0x03, 0xAA, 0xBB, 0xCC] = .ok (.nvmSet 64 3 [0xAA, 0xBB, 0xCC], [])

/-- R79: the 41 bits of a descriptor. -/
def Obligations.DescriptorLayout : Prop :=
  ∀ x : Xfer, x.descriptor.toNat =
    x.w16.toNat * 2 ^ 40 + x.dev.toNat * 2 ^ 33 + x.rnw.toNat * 2 ^ 32 + x.reg.toNat * 2 ^ 16 + x.len.toNat

/-! ### The step -/

/-- When the bytes the host presents decode to a command, the step is `exec` of it, with those bytes taken (R23, R70). -/
def Obligations.StepRunsThePresentedCommand : Prop :=
  ∀ (s : State) (i : Instr) (rest : List Byte), s.Idle → s.descriptors = [] →
    decodeCommand s.commands = .ok (i, rest) → step s = exec i { s with commands := rest }

/-- When bytes handed to the Bus Transport decode to a transfer, the step is `exec` of it, with those bytes taken. -/
def Obligations.StepRunsTheHandedDescriptor : Prop :=
  ∀ (s : State) (i : Instr) (rest : List Byte), s.Idle → s.descriptors ≠ [] →
    decodeDescriptor s.descriptors = .ok (i, rest) → step s = exec i { s with descriptors := rest }

/-- R36, R100: it makes no difference whether a transfer's reply is at hand when it is issued or comes later, for the first
transfer of an instruction and for the second of CLK_INIT alike: when the replies at hand leave a transfer waiting, the step
that takes later ones ends as the instruction would have ended with all of them at hand. (With `never` at hand there is no
later reply.) -/
def Obligations.LateReplyEndsTheInstructionTheSame : Prop :=
  ∀ (s t : State) (i : Instr) (rs : List Reply), s.Idle → (∀ r ∈ s.replies, r.outcome ≠ .never) →
    exec i s = .next t → t.inFlight.isSome = true →
    step { t with replies := t.replies ++ rs } = exec i { s with replies := s.replies ++ rs }

/-- While no reply comes, a waiting command never responds and BUSY stays 1, for any number of steps, and the reset event ends
this (R155). That the hang is the same state again, SEC and MIN included, is the model's choice (log entry 8): R32 lets the
two bytes run, and the next reply brings them. -/
def Obligations.WaitingCommandHangsUntilReset : Prop :=
  ∀ (s : State), s.Inv → s.busy = true → s.powerOn = false → s.NoReply →
    (∀ k : Nat, core.run k s = .next s) ∧
    ∃ t, step { s with powerOn := true } = .next t ∧ t.busy = false ∧ t.inFlight = none

/-- R26: while BUSY = 1 the block accepts no command. -/
def Obligations.BusyBlockAcceptsNoCommand : Prop :=
  ∀ (s : State) (i : Instr), i.port = .command → s.busy = true → exec i s = .next s

/-- A ready machine's instruction leaves at most one transfer without an answer, and the answers are as many as the other
transfers (R36, R104). That an instruction, a bare transfer included, which meets a transfer in flight changes nothing is the
model's (log entry 17, DEDUCED): R104 says only that none is issued then. -/
def Obligations.OneTransferOutstanding : Prop :=
  ∀ (s t : State) (i : Instr), exec i s = .next t →
    (s.inFlight.isSome = true → t = s) ∧
    (s.ready = true →
      t.issued.length + s.returned.length =
        s.issued.length + t.returned.length + (if t.inFlight.isSome then 1 else 0))

/-- R160: the reset event. -/
def Obligations.PowerOnIsTheResetEvent : Prop :=
  ∀ s : State, s.powerOn = true →
    ∃ t, step s = .next t ∧ t.busy = false ∧ t.tvalid = false ∧ t.host = .busInit ∧ t.inFlight = none ∧
      t.powerOn = false ∧ t.commands = [] ∧ t.responses = s.responses

/-- R161, R160: the reset event does not reset the peripherals. With no write in flight, or one of no byte, they keep
everything. An abandoned write, of any command or of none, changes only the device it goes to; to the clock device only RAM
bytes it addresses, and COUNTING only if it addresses SS_REG; to the NVM device, when it is safe, only bytes it addresses. So an abandoned CLK_INIT keeps COUNTING at its first transfer, RAM at its second, and the NVM at both. -/
def Obligations.PowerOnKeepsThePeripherals : Prop :=
  ∀ s t : State, s.Inv → s.powerOn = true → step s = .next t →
    ((∀ fl, s.inFlight = some fl → fl.xfer.rnw = true ∨ fl.xfer.len.toNat = 0) → t.clock = s.clock ∧ t.nvm = s.nvm) ∧
    (∀ (x : Xfer) (o : Owner), s.inFlight = some { xfer := x, owner := o } →
      t.clock.sec = s.clock.sec ∧ t.clock.min = s.clock.min ∧
      (x.dev ≠ s.params.clkDev → t.clock = s.clock) ∧
      (x.dev ≠ s.params.nvmDev → t.nvm = s.nvm) ∧
      (x.w16 = false →
        (∀ p, p < 56 →
          s.params.ramBase.toNat + p < x.reg.toNat ∨ x.reg.toNat + x.len.toNat ≤ s.params.ramBase.toNat + p →
          t.clock.ram.read p = s.clock.ram.read p) ∧
        (s.params.ssReg.toNat < x.reg.toNat ∨ x.reg.toNat + x.len.toNat ≤ s.params.ssReg.toNat →
          t.clock.counting = s.clock.counting)) ∧
      (x.w16 = true → Params.safeWrite s.params x.reg.toNat x.len.toNat = true →
        Memory.SameOutside s.nvm t.nvm x.reg.toNat x.len.toNat) ∧
      (o = .clkInitRam → t.clock.counting = s.clock.counting ∧ t.nvm = s.nvm) ∧
      (∀ firstOk, o = .clkInitStart firstOk → t.clock.ram = s.clock.ram ∧ t.nvm = s.nvm))

/-! ### The commands of the clock device -/

/-- R110, CLK_INIT: both transfers succeed; either or both fail; the second is skipped only when the first fails and
INIT_STOP_ON_FAIL holds; either never completes. -/
def Obligations.ClkInitFollowsItsRule : Prop :=
  ∀ s : State, s.Inv → s.ready = true →
    (∀ r₁ r₂ rest, s.replies = r₁ :: r₂ :: rest → r₁.outcome = .ok → r₂.outcome = .ok →
      ∃ t, exec .clkInit s = .next t ∧
        (∀ p, p < 56 → t.clock.ram.read p = 0) ∧
        t = { s with
          clock := { ram := t.clock.ram, sec := r₂.sec, min := r₂.min, counting := true }
          replies := rest, draws := s.draws + 2
          issued := s.issued ++ [clkInitRamXfer s.params, clkInitStartXfer s.params]
          returned := s.returned ++ [{ ok := true, data := [] }, { ok := true, data := [] }]
          responses := s.responses ++ [{ status := .ok, data := [] }] }) ∧
    (∀ r₁ r₂ rest, s.replies = r₁ :: r₂ :: rest → r₁.outcome = .ok → r₂.outcome = .fail →
      ∃ t, exec .clkInit s = .next t ∧
        (∀ p, p < 56 → t.clock.ram.read p = 0) ∧
        t = { s with
          clock := { ram := t.clock.ram, sec := r₂.sec, min := r₂.min, counting := t.clock.counting }
          replies := rest, draws := s.draws + 2
          issued := s.issued ++ [clkInitRamXfer s.params, clkInitStartXfer s.params]
          returned := s.returned ++ [{ ok := true, data := [] }, { ok := false, data := [] }]
          responses := s.responses ++ [{ status := .transportErr, data := [] }] }) ∧
    (∀ r₁ r₂ rest, s.replies = r₁ :: r₂ :: rest → r₁.outcome = .fail → r₂.outcome = .ok →
      s.params.initStopOnFail = false →
      ∃ t, exec .clkInit s = .next t ∧
        t = { s with
          clock := { ram := t.clock.ram, sec := r₂.sec, min := r₂.min, counting := true }
          replies := rest, draws := s.draws + 2
          issued := s.issued ++ [clkInitRamXfer s.params, clkInitStartXfer s.params]
          returned := s.returned ++ [{ ok := false, data := [] }, { ok := true, data := [] }]
          responses := s.responses ++ [{ status := .transportErr, data := [] }] }) ∧
    (∀ r₁ r₂ rest, s.replies = r₁ :: r₂ :: rest → r₁.outcome = .fail → r₂.outcome = .fail →
      s.params.initStopOnFail = false →
      ∃ t, exec .clkInit s = .next t ∧
        t = { s with
          clock := { ram := t.clock.ram, sec := r₂.sec, min := r₂.min, counting := t.clock.counting }
          replies := rest, draws := s.draws + 2
          issued := s.issued ++ [clkInitRamXfer s.params, clkInitStartXfer s.params]
          returned := s.returned ++ [{ ok := false, data := [] }, { ok := false, data := [] }]
          responses := s.responses ++ [{ status := .transportErr, data := [] }] }) ∧
    (∀ r₁ rest, s.replies = r₁ :: rest → r₁.outcome = .fail → s.params.initStopOnFail = true →
      ∃ t, exec .clkInit s = .next t ∧
        t = { s with
          clock := { ram := t.clock.ram, sec := r₁.sec, min := r₁.min, counting := s.clock.counting }
          replies := rest, draws := s.draws + 1
          issued := s.issued ++ [clkInitRamXfer s.params]
          returned := s.returned ++ [{ ok := false, data := [] }]
          responses := s.responses ++ [{ status := .transportErr, data := [] }] }) ∧
    (s.NoReply →
      exec .clkInit s = .next { s with
        busy := true
        inFlight := some { xfer := clkInitRamXfer s.params, owner := .clkInitRam }
        issued := s.issued ++ [clkInitRamXfer s.params] }) ∧
    (∀ r₁ rest, s.replies = r₁ :: rest → r₁.outcome = .ok →
      (rest = [] ∨ ∃ r₂ rest', rest = r₂ :: rest' ∧ r₂.outcome = .never) →
      ∃ t, exec .clkInit s = .next t ∧
        (∀ p, p < 56 → t.clock.ram.read p = 0) ∧
        t = { s with
          busy := true
          inFlight := some { xfer := clkInitStartXfer s.params, owner := .clkInitStart true }
          clock := { ram := t.clock.ram, sec := r₁.sec, min := r₁.min, counting := s.clock.counting }
          replies := rest, draws := s.draws + 1
          issued := s.issued ++ [clkInitRamXfer s.params, clkInitStartXfer s.params]
          returned := s.returned ++ [{ ok := true, data := [] }] }) ∧
    (∀ r₁ rest, s.replies = r₁ :: rest → r₁.outcome = .fail → s.params.initStopOnFail = false →
      (rest = [] ∨ ∃ r₂ rest', rest = r₂ :: rest' ∧ r₂.outcome = .never) →
      ∃ t, exec .clkInit s = .next t ∧
        t = { s with
          busy := true
          inFlight := some { xfer := clkInitStartXfer s.params, owner := .clkInitStart false }
          clock := { ram := t.clock.ram, sec := r₁.sec, min := r₁.min, counting := s.clock.counting }
          replies := rest, draws := s.draws + 1
          issued := s.issued ++ [clkInitRamXfer s.params, clkInitStartXfer s.params]
          returned := s.returned ++ [{ ok := false, data := [] }] })

/-- R110, corner case (d): CLK_INIT twice in succession, both OK, leaves the same RAM and the same COUNTING as once. -/
def Obligations.ClkInitTwiceIsOnce : Prop :=
  ∀ (s t u : State) (r₁ r₂ r₃ r₄ : Reply) (rest : List Reply), s.Inv → s.ready = true →
    s.replies = r₁ :: r₂ :: r₃ :: r₄ :: rest →
    r₁.outcome = .ok → r₂.outcome = .ok → r₃.outcome = .ok → r₄.outcome = .ok →
    exec .clkInit s = .next t → exec .clkInit t = .next u →
    u.clock.ram = t.clock.ram ∧ u.clock.counting = t.clock.counting ∧ u.nvm = t.nvm

/-- R111, RAM_GET(L): BOUNDS_ERR with no transfer for `L >= 56`; else the `L` bytes from RAM[0] up, TRANSPORT_ERR, or
waiting for ever. Nothing of the peripherals changes but the running counter. -/
def Obligations.RamGetFollowsItsRule : Prop :=
  ∀ (s : State) (len : Length), s.ready = true →
    (56 ≤ len.toNat →
      exec (.ramGet len) s = .next { s with responses := s.responses ++ [{ status := .boundsErr, data := [] }] }) ∧
    (len.toNat < 56 →
      (∀ r rest, s.replies = r :: rest → r.outcome = .ok →
        ∃ d : List Byte, d.length = len.toNat ∧ (∀ i, i < len.toNat → d[i]? = some (s.clock.ram.read i)) ∧
          exec (.ramGet len) s = .next { s with
            clock := { s.clock with sec := r.sec, min := r.min }
            replies := rest, draws := s.draws + 1
            issued := s.issued ++ [ramGetXfer s.params len]
            returned := s.returned ++ [{ ok := true, data := d }]
            responses := s.responses ++ [{ status := .ok, data := d }] }) ∧
      (∀ r rest, s.replies = r :: rest → r.outcome = .fail →
        exec (.ramGet len) s = .next { s with
          clock := { s.clock with sec := r.sec, min := r.min }
          replies := rest, draws := s.draws + 1
          issued := s.issued ++ [ramGetXfer s.params len]
          returned := s.returned ++ [{ ok := false, data := [] }]
          responses := s.responses ++ [{ status := .transportErr, data := [] }] }) ∧
      (s.NoReply →
        exec (.ramGet len) s = .next { s with
          busy := true
          inFlight := some { xfer := ramGetXfer s.params len, owner := .buffer }
          issued := s.issued ++ [ramGetXfer s.params len] }))

/-- R112, RAM_SET(L, P): BOUNDS_ERR with no transfer and nothing changed for `L >= 56`; else `RAM[i] = P[i]` below `L` and
the bytes from `L` on kept; a failure leaves only the addressed bytes open; or waiting for ever. -/
def Obligations.RamSetFollowsItsRule : Prop :=
  ∀ (s : State) (len : Length) (bs : List Byte), s.Inv → s.ready = true → bs.length = len.toNat →
    (56 ≤ len.toNat →
      exec (.ramSet len bs) s = .next { s with responses := s.responses ++ [{ status := .boundsErr, data := [] }] }) ∧
    (len.toNat < 56 →
      (∀ r rest, s.replies = r :: rest → r.outcome = .ok →
        ∃ t, exec (.ramSet len bs) s = .next t ∧
          (∀ i, i < len.toNat → bs[i]? = some (t.clock.ram.read i)) ∧
          Memory.SameOutside s.clock.ram t.clock.ram 0 len.toNat ∧
          t = { s with
            clock := { ram := t.clock.ram, sec := r.sec, min := r.min, counting := s.clock.counting }
            replies := rest, draws := s.draws + 1
            issued := s.issued ++ [ramSetXfer s.params len bs]
            returned := s.returned ++ [{ ok := true, data := [] }]
            responses := s.responses ++ [{ status := .ok, data := [] }] }) ∧
      (∀ r rest, s.replies = r :: rest → r.outcome = .fail →
        ∃ t, exec (.ramSet len bs) s = .next t ∧
          Memory.SameOutside s.clock.ram t.clock.ram 0 len.toNat ∧
          t = { s with
            clock := { ram := t.clock.ram, sec := r.sec, min := r.min, counting := s.clock.counting }
            replies := rest, draws := s.draws + 1
            issued := s.issued ++ [ramSetXfer s.params len bs]
            returned := s.returned ++ [{ ok := false, data := [] }]
            responses := s.responses ++ [{ status := .transportErr, data := [] }] }) ∧
      (s.NoReply →
        exec (.ramSet len bs) s = .next { s with
          busy := true
          inFlight := some { xfer := ramSetXfer s.params len bs, owner := .buffer }
          issued := s.issued ++ [ramSetXfer s.params len bs] }))

/-- R113, GET_TIME: on success each digit field is its bits of the two bytes and TVALID is 1; on failure TVALID is 0 and
TIME keeps its prior value; or waiting for ever. Never BOUNDS_ERR. -/
def Obligations.GetTimeFollowsItsRule : Prop :=
  ∀ s : State, s.params.Ok → s.ready = true →
    (∀ r rest, s.replies = r :: rest → r.outcome = .ok →
      ∃ t, exec .getTime s = .next t ∧
        t.time.st.toNat = r.sec.toNat / 16 % 8 ∧ t.time.so.toNat = r.sec.toNat % 16 ∧
        t.time.mt.toNat = r.min.toNat / 16 % 8 ∧ t.time.mo.toNat = r.min.toNat % 16 ∧
        t = { s with
          time := t.time, tvalid := true
          clock := { s.clock with sec := r.sec, min := r.min }
          replies := rest, draws := s.draws + 1
          issued := s.issued ++ [getTimeXfer s.params]
          returned := s.returned ++ [{ ok := true, data := [r.sec, r.min] }]
          responses := s.responses ++ [{ status := .ok, data := [] }] }) ∧
    (∀ r rest, s.replies = r :: rest → r.outcome = .fail →
      exec .getTime s = .next { s with
        tvalid := false
        clock := { s.clock with sec := r.sec, min := r.min }
        replies := rest, draws := s.draws + 1
        issued := s.issued ++ [getTimeXfer s.params]
        returned := s.returned ++ [{ ok := false, data := [] }]
        responses := s.responses ++ [{ status := .transportErr, data := [] }] }) ∧
    (s.NoReply →
      exec .getTime s = .next { s with
        busy := true
        inFlight := some { xfer := getTimeXfer s.params, owner := .getTime }
        issued := s.issued ++ [getTimeXfer s.params] })

/-- R117: a successful GET_TIME depends on nothing TIME and TVALID held before; after a failed one TIME is the old value
and TVALID is 0. -/
def Obligations.GetTimeIsFresh : Prop :=
  ∀ (s : State) (old : TimeReg) (v : Bool) (r : Reply) (rest : List Reply), s.ready = true → s.replies = r :: rest →
    (r.outcome = .ok → exec .getTime { s with time := old, tvalid := v } = exec .getTime s) ∧
    (r.outcome = .fail → ∃ t, exec .getTime { s with time := old, tvalid := v } = .next t ∧ t.time = old ∧
      t.tvalid = false)

/-- R114: BcdSplit takes bits [6:4] and bits [3:0] of any byte. -/
def Obligations.BcdSplitTakesTheDigits : Prop :=
  ∀ b : Byte, (bcdSplit b).1.toNat = b.toNat / 16 % 8 ∧ (bcdSplit b).2.toNat = b.toNat % 16

/-- R115: bit 7 of a byte is ignored, and every tens value and every low nibble, those above 9 too, pass through. -/
def Obligations.BcdSplitIgnoresBitSeven : Prop :=
  ∀ b : Byte, bcdSplit b = bcdSplit (b &&& 0x7F) ∧
    (∀ (bit7 : BitVec 1) (tens : BitVec 3) (ones : BitVec 4), bcdSplit (bit7 ++ tens ++ ones) = (tens, ones))

/-- R116: BcdToBin is `10 * tens + ones`, at most 59 for the digits of a running clock, at most 85 for any, without
overflow. -/
def Obligations.BcdToBinIsTensAndOnes : Prop :=
  ∀ (tens : BitVec 3) (ones : BitVec 4),
    (bcdToBin tens ones).toNat = 10 * tens.toNat + ones.toNat ∧ (bcdToBin tens ones).toNat ≤ 85 ∧
    (tens.toNat ≤ 5 → ones.toNat ≤ 9 → (bcdToBin tens ones).toNat ≤ 59)

/-- R24: the places of the four fields in the 14 bits of TIME, and that nothing is lost by the packing. -/
def Obligations.TimeFieldsHaveTheirBits : Prop :=
  ∀ t : TimeReg,
    t.packed.toNat = t.st.toNat * 2 ^ 11 + t.so.toNat * 2 ^ 7 + t.mt.toNat * 2 ^ 4 + t.mo.toNat ∧
    TimeReg.unpack t.packed = t

/-- R118: after a RAM_SET(L, P) that responded OK, a RAM_GET(L') with `L' <= L` that responds OK gives the first `L'`
bytes of P, whatever comes between them but a RAM_SET, a CLK_INIT or a write transfer to the clock device. -/
def Obligations.RamRoundTrip : Prop :=
  ∀ (s t u v : State) (len len' : Length) (bs d : List Byte) (between : List Instr), s.Inv → s.ready = true →
    bs.length = len.toNat → len'.toNat ≤ len.toNat →
    exec (.ramSet len bs) s = .next t → t.responses = s.responses ++ [{ status := .ok, data := [] }] →
    (∀ i ∈ between, Instr.SparesRam s.params i) → execAll between t = some u → u.ready = true →
    exec (.ramGet len') u = .next v → v.responses = u.responses ++ [{ status := .ok, data := d }] →
    d = bs.take len'.toNat

/-- R118, R134: a command to the NVM device disturbs neither the RAM nor COUNTING. -/
def Obligations.NvmCommandsKeepTheClockDevice : Prop :=
  ∀ (s t : State) (i : Instr), s.params.Ok →
    ((∃ off len, i = .nvmGet off len) ∨ ∃ off len bs, i = .nvmSet off len bs) → exec i s = .next t →
    t.clock.ram = s.clock.ram ∧ t.clock.counting = s.clock.counting

/-- R118, R134: a command to the clock device does not disturb the NVM. -/
def Obligations.ClockCommandsKeepTheNvm : Prop :=
  ∀ (s t : State) (i : Instr),
    (i = .clkInit ∨ i = .getTime ∨ (∃ len, i = .ramGet len) ∨ ∃ len bs, i = .ramSet len bs) → exec i s = .next t →
    t.nvm = s.nvm

/-- R171: no RAM_SET changes RAM[55], and no RAM_GET gives more than the 55 bytes below it. -/
def Obligations.RamByte55IsOutOfReach : Prop :=
  ∀ (s t : State) (len : Length), s.Inv → s.ready = true →
    (∀ bs, bs.length = len.toNat → exec (.ramSet len bs) s = .next t → t.clock.ram.read 55 = s.clock.ram.read 55) ∧
    (∀ d, exec (.ramGet len) s = .next t → t.responses = s.responses ++ [{ status := .ok, data := d }] →
      d.length ≤ 55 ∧ ∀ i, i < d.length → d[i]? = some (s.clock.ram.read i))

/-! ### The commands of the NVM device -/

/-- R130, NVM_GET(OFFSET, L): BOUNDS_ERR with no transfer for `L >= 4096`; else `L` bytes, those at OFFSET and up when
`OFFSET + L <= 4096`; TRANSPORT_ERR; or waiting for ever. Nothing of the peripherals changes but the running counter. -/
def Obligations.NvmGetFollowsItsRule : Prop :=
  ∀ (s : State) (off : Pointer16) (len : Length), s.params.Ok → s.ready = true →
    (4096 ≤ len.toNat →
      exec (.nvmGet off len) s =
        .next { s with responses := s.responses ++ [{ status := .boundsErr, data := [] }] }) ∧
    (len.toNat < 4096 →
      (∀ r rest, s.replies = r :: rest → r.outcome = .ok →
        ∃ d : List Byte, d.length = len.toNat ∧
          (off.toNat + len.toNat ≤ 4096 → ∀ i, i < len.toNat → d[i]? = some (s.nvm.read (off.toNat + i))) ∧
          exec (.nvmGet off len) s = .next { s with
            clock := { s.clock with sec := r.sec, min := r.min }
            replies := rest, draws := s.draws + 1
            issued := s.issued ++ [nvmGetXfer s.params off len]
            returned := s.returned ++ [{ ok := true, data := d }]
            responses := s.responses ++ [{ status := .ok, data := d }] }) ∧
      (∀ r rest, s.replies = r :: rest → r.outcome = .fail →
        exec (.nvmGet off len) s = .next { s with
          clock := { s.clock with sec := r.sec, min := r.min }
          replies := rest, draws := s.draws + 1
          issued := s.issued ++ [nvmGetXfer s.params off len]
          returned := s.returned ++ [{ ok := false, data := [] }]
          responses := s.responses ++ [{ status := .transportErr, data := [] }] }) ∧
      (s.NoReply →
        exec (.nvmGet off len) s = .next { s with
          busy := true
          inFlight := some { xfer := nvmGetXfer s.params off len, owner := .buffer }
          issued := s.issued ++ [nvmGetXfer s.params off len] }))

/-- R131, NVM_SET(OFFSET, L, P): BOUNDS_ERR with no transfer and nothing changed for `L >= 4096`; else one transfer, never
split: a zero-length write changes nothing, a safe one that succeeds stores P and keeps every other byte, a safe one that
fails leaves only the addressed bytes open, and one that is not safe raises nothing and leaves the NVM open; or waiting for
ever. -/
def Obligations.NvmSetFollowsItsRule : Prop :=
  ∀ (s : State) (off : Pointer16) (len : Length) (bs : List Byte), s.Inv → s.ready = true → bs.length = len.toNat →
    (4096 ≤ len.toNat →
      exec (.nvmSet off len bs) s =
        .next { s with responses := s.responses ++ [{ status := .boundsErr, data := [] }] }) ∧
    (len.toNat < 4096 →
      (∀ r rest, s.replies = r :: rest → r.outcome = .ok →
        ∃ t, exec (.nvmSet off len bs) s = .next t ∧
          (len.toNat = 0 → t.nvm = s.nvm) ∧
          (0 < len.toNat → off.toNat + len.toNat ≤ 4096 →
            off.toNat / s.params.pageSize = (off.toNat + len.toNat - 1) / s.params.pageSize →
            (∀ i, i < len.toNat → bs[i]? = some (t.nvm.read (off.toNat + i))) ∧
            Memory.SameOutside s.nvm t.nvm off.toNat len.toNat) ∧
          t = { s with
            clock := { s.clock with sec := r.sec, min := r.min }
            nvm := t.nvm
            replies := rest, draws := s.draws + 1
            issued := s.issued ++ [nvmSetXfer s.params off len bs]
            returned := s.returned ++ [{ ok := true, data := [] }]
            responses := s.responses ++ [{ status := .ok, data := [] }] }) ∧
      (∀ r rest, s.replies = r :: rest → r.outcome = .fail →
        ∃ t, exec (.nvmSet off len bs) s = .next t ∧
          (len.toNat = 0 → t.nvm = s.nvm) ∧
          (0 < len.toNat → off.toNat + len.toNat ≤ 4096 →
            off.toNat / s.params.pageSize = (off.toNat + len.toNat - 1) / s.params.pageSize →
            Memory.SameOutside s.nvm t.nvm off.toNat len.toNat) ∧
          t = { s with
            clock := { s.clock with sec := r.sec, min := r.min }
            nvm := t.nvm
            replies := rest, draws := s.draws + 1
            issued := s.issued ++ [nvmSetXfer s.params off len bs]
            returned := s.returned ++ [{ ok := false, data := [] }]
            responses := s.responses ++ [{ status := .transportErr, data := [] }] }) ∧
      (s.NoReply →
        exec (.nvmSet off len bs) s = .next { s with
          busy := true
          inFlight := some { xfer := nvmSetXfer s.params off len bs, owner := .buffer }
          issued := s.issued ++ [nvmSetXfer s.params off len bs] }))

/-- R132: OFFSET has no part in the check: two NVM commands that differ in it end with the same statuses, and a length that
passes is issued with OFFSET and L unchanged. -/
def Obligations.OffsetIsNotChecked : Prop :=
  ∀ (s t t' : State) (off off' : Pointer16) (len : Length) (bs : List Byte), s.ready = true →
    (exec (.nvmGet off len) s = .next t → exec (.nvmGet off' len) s = .next t' →
      t.responses.map (·.status) = t'.responses.map (·.status) ∧ t.busy = t'.busy ∧
      (len.toNat < 4096 → ∃ x, t.issued = s.issued ++ [x] ∧ x.reg = off ∧ x.len = len)) ∧
    (exec (.nvmSet off len bs) s = .next t → exec (.nvmSet off' len bs) s = .next t' →
      t.responses.map (·.status) = t'.responses.map (·.status) ∧ t.busy = t'.busy ∧
      (len.toNat < 4096 → ∃ x, t.issued = s.issued ++ [x] ∧ x.reg = off ∧ x.len = len))

/-- R134, byte by byte: a byte of an NVM_GET inside the range that responds OK is the one stored by the most recent successful
safe write that covers it (an NVM_SET that responded OK, or XFER_W16 to the NVM device that succeeded), whatever has come
since but a write that is not safe or touches that byte. The bytes of one NVM_GET may come from different writes. -/
def Obligations.NvmRoundTrip : Prop :=
  ∀ (s t u v : State) (w : Instr) (off off' : Pointer16) (len len' : Length) (bs d : List Byte) (between : List Instr)
    (i : Nat), s.Inv → s.ready = true → bs.length = len.toNat →
    Params.safeWrite s.params off.toNat len.toNat = true →
    off'.toNat + len'.toNat ≤ 4096 → i < len'.toNat →
    off.toNat ≤ off'.toNat + i → off'.toNat + i < off.toNat + len.toNat →
    exec w s = .next t → w.StoredNvm s t off len bs →
    (∀ j ∈ between, Instr.SparesNvm s.params (off'.toNat + i) 1 j) → execAll between t = some u → u.ready = true →
    exec (.nvmGet off' len') u = .next v → v.responses = u.responses ++ [{ status := .ok, data := d }] →
    ∃ b, bs[off'.toNat + i - off.toNat]? = some b ∧ d[i]? = some b

/-! ### Errors and responses -/

/-- R141: BOUNDS_ERR exactly when the length meets or exceeds the capacity, never by CLK_INIT or GET_TIME; no transfer is
issued, whatever the bus would answer, and nothing but the response is new. -/
def Obligations.BoundsErrorExactlyWhenOverLimit : Prop :=
  ∀ (s t : State) (i : Instr), i.port = .command → s.ready = true → exec i s = .next t →
    (t.responses = s.responses ++ [{ status := .boundsErr, data := [] }] ↔ i.OverLimit) ∧
    (i.OverLimit → t = { s with responses := s.responses ++ [{ status := .boundsErr, data := [] }] })

/-- R140: an accepted command ends in exactly one of OK, BOUNDS_ERR, TRANSPORT_ERR with one response and BUSY = 0, or it
waits with no response and BUSY = 1. -/
def Obligations.CommandRespondsOnceOrWaits : Prop :=
  ∀ (s t : State) (i : Instr), i.port = .command → s.ready = true → exec i s = .next t →
    (t.busy = false ∧ t.inFlight = none ∧ ∃ resp, t.responses = s.responses ++ [resp]) ∨
    (t.busy = true ∧ t.responses = s.responses ∧ ∃ fl, t.inFlight = some fl ∧ fl.owner ≠ .bare)

/-- R77: the response's data is the `L` bytes read for a read command that ends OK, and empty in every other case. -/
def Obligations.ResponseDataIsForReads : Prop :=
  ∀ (s t : State) (i : Instr) (resp : Response), s.params.Ok → i.port = .command → s.ready = true →
    exec i s = .next t → t.responses = s.responses ++ [resp] →
    (resp.status = .ok → resp.data.length = i.dataLength) ∧ (resp.status ≠ .ok → resp.data = [])

/-- R146: what an error changes, in full: BUSY is 0; TVALID is cleared by a failed GET_TIME only; of the peripherals only the
bytes a failed write addressed (and COUNTING by CLK_INIT), nothing of them by a read command or a BOUNDS_ERR. -/
def Obligations.ErrorsChangeNothingElse : Prop :=
  ∀ (s t : State) (i : Instr) (resp : Response), s.Inv → i.port = .command → i.wellFormed = true → s.ready = true →
    exec i s = .next t → t.responses = s.responses ++ [resp] → resp.status ≠ .ok →
    t.busy = false ∧ t.time = s.time ∧ t.tvalid = (if i = .getTime then false else s.tvalid) ∧
    (i ≠ .clkInit → t.clock.counting = s.clock.counting) ∧
    (match i with
      | .clkInit => t.nvm = s.nvm
      | .ramSet len _ =>
        t.nvm = s.nvm ∧
        (if resp.status = .boundsErr then t.clock.ram = s.clock.ram
         else Memory.SameOutside s.clock.ram t.clock.ram 0 len.toNat)
      | .nvmSet off len _ =>
        t.clock.ram = s.clock.ram ∧
        (if resp.status = .boundsErr ∨ len.toNat = 0 then t.nvm = s.nvm
         else Params.safeWrite s.params off.toNat len.toNat = true →
           Memory.SameOutside s.nvm t.nvm off.toNat len.toNat)
      | .ramGet _ => t.clock.ram = s.clock.ram ∧ t.nvm = s.nvm
      | .getTime => t.clock.ram = s.clock.ram ∧ t.nvm = s.nvm
      | .nvmGet _ _ => t.clock.ram = s.clock.ram ∧ t.nvm = s.nvm
      | .xferW8 _ _ _ _ => True
      | .xferR8 _ _ _ => True
      | .xferW16 _ _ _ _ => True
      | .xferR16 _ _ _ => True)

/-- R25: TVALID and TIME are left alone by every instruction but GET_TIME. -/
def Obligations.OnlyGetTimeWritesTime : Prop :=
  ∀ (s t : State) (i : Instr), i ≠ .getTime → exec i s = .next t → t.time = s.time ∧ t.tvalid = s.tvalid

/-- R24, R25, R113, over every step of the machine but the reset event: TIME and TVALID change only in a step that runs a
GET_TIME (taken from the stream, or waiting) and takes its reply; on ok the four fields are the digits of that reply's seconds
and minutes bytes, TVALID is 1 and the response is (OK, empty); on fail TIME is kept, TVALID is 0 and the response is
(TRANSPORT_ERR, empty). -/
def Obligations.TimeChangesOnlyBySuccess : Prop :=
  ∀ s t : State, s.Inv → s.powerOn = false → step s = .next t →
    (¬ s.RunsGetTime ∨ s.NoReply → t.time = s.time ∧ t.tvalid = s.tvalid) ∧
    (s.RunsGetTime → ∀ r rest, s.replies = r :: rest →
      (r.outcome = .ok →
        t.time.st.toNat = r.sec.toNat / 16 % 8 ∧ t.time.so.toNat = r.sec.toNat % 16 ∧
        t.time.mt.toNat = r.min.toNat / 16 % 8 ∧ t.time.mo.toNat = r.min.toNat % 16 ∧ t.tvalid = true ∧
        t.responses = s.responses ++ [{ status := .ok, data := [] }]) ∧
      (r.outcome = .fail →
        t.time = s.time ∧ t.tvalid = false ∧
        t.responses = s.responses ++ [{ status := .transportErr, data := [] }]))

/-! ### The transfers -/

/-- R81: every transfer a command issues is one of the seven shapes; its device and pointer width go together, and an
8-bit pointer has its high byte zero. -/
def Obligations.BlockEmitsOnlySevenShapes : Prop :=
  ∀ (s t : State) (i : Instr), i.port = .command → s.ready = true → exec i s = .next t →
    ∃ new : List Xfer, t.issued = s.issued ++ new ∧ new.length ≤ 2 ∧
      ∀ x ∈ new, x.IsBlockShape s.params ∧
        (x.w16 = false → x.dev = s.params.clkDev ∧ x.reg.toNat < 256) ∧
        (x.w16 = true → x.dev = s.params.nvmDev)

/-- R90, R92, R93: the fields of each command's transfers. -/
def Obligations.DecodeTableFields : Prop :=
  ∀ (p : Params) (off : Pointer16) (len : Length) (bs : List Byte),
    (∀ x ∈ [clkInitRamXfer p, clkInitStartXfer p, ramGetXfer p len, ramSetXfer p len bs, getTimeXfer p],
      x.w16 = false ∧ x.dev = p.clkDev) ∧
    (∀ x ∈ [nvmGetXfer p off len, nvmSetXfer p off len bs], x.w16 = true ∧ x.dev = p.nvmDev ∧ x.reg = off ∧
      x.len = len) ∧
    (∀ x ∈ [clkInitRamXfer p, ramGetXfer p len, ramSetXfer p len bs], x.reg.toNat = p.ramBase.toNat) ∧
    (∀ x ∈ [clkInitStartXfer p, getTimeXfer p], x.reg.toNat = p.ssReg.toNat) ∧
    (∀ x ∈ [ramGetXfer p len, getTimeXfer p, nvmGetXfer p off len], x.rnw = true) ∧
    (∀ x ∈ [clkInitRamXfer p, clkInitStartXfer p, ramSetXfer p len bs, nvmSetXfer p off len bs], x.rnw = false) ∧
    (clkInitRamXfer p).len.toNat = 56 ∧ (clkInitRamXfer p).payload = List.replicate 56 0 ∧
    (clkInitStartXfer p).len.toNat = 1 ∧ (clkInitStartXfer p).payload = [0] ∧ (getTimeXfer p).len.toNat = 2 ∧
    (ramGetXfer p len).len = len ∧ (ramSetXfer p len bs).len = len ∧
    (ramSetXfer p len bs).payload = bs ∧ (nvmSetXfer p off len bs).payload = bs

/-- "Flags written: none" (R96 to R99): a transfer run by itself writes no state of the block, presents no response, and
takes nothing from the host. -/
def Obligations.TransfersWriteNoFlag : Prop :=
  ∀ (s t : State) (i : Instr), i.port = .transfer → exec i s = .next t →
    t.time = s.time ∧ t.tvalid = s.tvalid ∧ t.busy = s.busy ∧ t.responses = s.responses ∧ t.host = s.host ∧
    t.commands = s.commands ∧ t.descriptors = s.descriptors ∧ t.powerOn = s.powerOn ∧ t.params = s.params

/-- R96, R31, R32, R45, XFER_W8 to the clock device, any register, length and payload, those past pointer 255 included: on ok
each RAM byte whose pointer is addressed takes its byte, every other RAM byte is kept, and COUNTING becomes true when 0x00 is
stored at SS_REG, whatever the other bytes are, and is kept when every pointer is a RAM byte or there is none; on fail every
RAM byte not addressed is kept, and COUNTING unless SS_REG is addressed. A transfer that never completes stays in flight.
(Which other successful writes leave COUNTING open: log entries 13 and 14.) -/
def Obligations.XferW8WritesTheClockDevice : Prop :=
  ∀ (s : State) (reg : Pointer8) (len : Length) (bs : List Byte), s.Inv → s.inFlight = none →
    bs.length = len.toNat →
    (∀ r rest, s.replies = r :: rest → r.outcome = .ok →
      ∃ t, exec (.xferW8 s.params.clkDev reg len bs) s = .next t ∧
        (∀ p i, p < 56 → i < len.toNat → reg.toNat + i = s.params.ramBase.toNat + p →
          bs[i]? = some (t.clock.ram.read p)) ∧
        (∀ p, p < 56 →
          s.params.ramBase.toNat + p < reg.toNat ∨ reg.toNat + len.toNat ≤ s.params.ramBase.toNat + p →
          t.clock.ram.read p = s.clock.ram.read p) ∧
        (len.toNat = 0 ∨ s.params.ramBase.toNat ≤ reg.toNat ∧
            reg.toNat + len.toNat ≤ s.params.ramBase.toNat + 56 →
          t.clock.counting = s.clock.counting) ∧
        (reg.toNat ≤ s.params.ssReg.toNat → bs[s.params.ssReg.toNat - reg.toNat]? = some 0 →
          t.clock.counting = true) ∧
        t = { s with
          clock := { ram := t.clock.ram, sec := r.sec, min := r.min, counting := t.clock.counting }
          replies := rest, draws := s.draws + 1
          issued := s.issued ++ [xferW8Xfer s.params.clkDev reg len bs]
          returned := s.returned ++ [{ ok := true, data := [] }] }) ∧
    (∀ r rest, s.replies = r :: rest → r.outcome = .fail →
      ∃ t, exec (.xferW8 s.params.clkDev reg len bs) s = .next t ∧
        (∀ p, p < 56 →
          s.params.ramBase.toNat + p < reg.toNat ∨ reg.toNat + len.toNat ≤ s.params.ramBase.toNat + p →
          t.clock.ram.read p = s.clock.ram.read p) ∧
        (s.params.ssReg.toNat < reg.toNat ∨ reg.toNat + len.toNat ≤ s.params.ssReg.toNat →
          t.clock.counting = s.clock.counting) ∧
        t = { s with
          clock := { ram := t.clock.ram, sec := r.sec, min := r.min, counting := t.clock.counting }
          replies := rest, draws := s.draws + 1
          issued := s.issued ++ [xferW8Xfer s.params.clkDev reg len bs]
          returned := s.returned ++ [{ ok := false, data := [] }] }) ∧
    (s.NoReply →
      exec (.xferW8 s.params.clkDev reg len bs) s = .next { s with
        inFlight := some { xfer := xferW8Xfer s.params.clkDev reg len bs, owner := .bare }
        issued := s.issued ++ [xferW8Xfer s.params.clkDev reg len bs] })

/-- R97, XFER_R8 from the clock device: on success MemRead(CLK, REG, LEN), byte by byte: RAM where the pointer is a RAM
byte, SEC at SS_REG, MIN at SS_REG+1, unspecified elsewhere; on failure no data; no peripheral state changes. -/
def Obligations.XferR8ReadsTheClockDevice : Prop :=
  ∀ (s : State) (reg : Pointer8) (len : Length), s.params.Ok → s.inFlight = none →
    (∀ r rest, s.replies = r :: rest → r.outcome = .ok →
      ∃ d : List Byte, d.length = len.toNat ∧
        (∀ i, i < len.toNat →
          (s.params.ramBase.toNat ≤ reg.toNat + i → reg.toNat + i ≤ s.params.ramBase.toNat + 55 →
            d[i]? = some (s.clock.ram.read (reg.toNat + i - s.params.ramBase.toNat))) ∧
          (reg.toNat + i = s.params.ssReg.toNat → d[i]? = some r.sec) ∧
          (reg.toNat + i = s.params.ssReg.toNat + 1 → d[i]? = some r.min)) ∧
        exec (.xferR8 s.params.clkDev reg len) s = .next { s with
          clock := { s.clock with sec := r.sec, min := r.min }
          replies := rest, draws := s.draws + 1
          issued := s.issued ++ [xferR8Xfer s.params.clkDev reg len]
          returned := s.returned ++ [{ ok := true, data := d }] }) ∧
    (∀ r rest, s.replies = r :: rest → r.outcome = .fail →
      exec (.xferR8 s.params.clkDev reg len) s = .next { s with
        clock := { s.clock with sec := r.sec, min := r.min }
        replies := rest, draws := s.draws + 1
        issued := s.issued ++ [xferR8Xfer s.params.clkDev reg len]
        returned := s.returned ++ [{ ok := false, data := [] }] }) ∧
    (s.NoReply →
      exec (.xferR8 s.params.clkDev reg len) s = .next { s with
        inFlight := some { xfer := xferR8Xfer s.params.clkDev reg len, owner := .bare }
        issued := s.issued ++ [xferR8Xfer s.params.clkDev reg len] })

/-- R98, XFER_W16 to the NVM device: a zero-length write changes nothing; a safe one stores its bytes on success and leaves
only the addressed bytes open on failure; any other leaves the NVM open; a transfer that never completes stays in flight. -/
def Obligations.XferW16WritesTheNvmDevice : Prop :=
  ∀ (s : State) (reg : Pointer16) (len : Length) (bs : List Byte), s.Inv → s.inFlight = none →
    bs.length = len.toNat →
    (∀ r rest, s.replies = r :: rest → r.outcome = .ok →
      ∃ t, exec (.xferW16 s.params.nvmDev reg len bs) s = .next t ∧
        (len.toNat = 0 → t.nvm = s.nvm) ∧
        (0 < len.toNat → Params.safeWrite s.params reg.toNat len.toNat = true →
          (∀ i, i < len.toNat → bs[i]? = some (t.nvm.read (reg.toNat + i))) ∧
          Memory.SameOutside s.nvm t.nvm reg.toNat len.toNat) ∧
        t = { s with
          clock := { s.clock with sec := r.sec, min := r.min }
          nvm := t.nvm
          replies := rest, draws := s.draws + 1
          issued := s.issued ++ [xferW16Xfer s.params.nvmDev reg len bs]
          returned := s.returned ++ [{ ok := true, data := [] }] }) ∧
    (∀ r rest, s.replies = r :: rest → r.outcome = .fail →
      ∃ t, exec (.xferW16 s.params.nvmDev reg len bs) s = .next t ∧
        (len.toNat = 0 → t.nvm = s.nvm) ∧
        (0 < len.toNat → Params.safeWrite s.params reg.toNat len.toNat = true →
          Memory.SameOutside s.nvm t.nvm reg.toNat len.toNat) ∧
        t = { s with
          clock := { s.clock with sec := r.sec, min := r.min }
          nvm := t.nvm
          replies := rest, draws := s.draws + 1
          issued := s.issued ++ [xferW16Xfer s.params.nvmDev reg len bs]
          returned := s.returned ++ [{ ok := false, data := [] }] }) ∧
    (s.NoReply →
      exec (.xferW16 s.params.nvmDev reg len bs) s = .next { s with
        inFlight := some { xfer := xferW16Xfer s.params.nvmDev reg len bs, owner := .bare }
        issued := s.issued ++ [xferW16Xfer s.params.nvmDev reg len bs] })

/-- R99, XFER_R16 from the NVM device: on success MemRead(NVM, REG, LEN), unspecified bytes when it runs past 4096; on
failure no data; no peripheral state changes. -/
def Obligations.XferR16ReadsTheNvmDevice : Prop :=
  ∀ (s : State) (reg : Pointer16) (len : Length), s.params.Ok → s.inFlight = none →
    (∀ r rest, s.replies = r :: rest → r.outcome = .ok →
      ∃ d : List Byte, d.length = len.toNat ∧
        (reg.toNat + len.toNat ≤ 4096 → ∀ i, i < len.toNat → d[i]? = some (s.nvm.read (reg.toNat + i))) ∧
        exec (.xferR16 s.params.nvmDev reg len) s = .next { s with
          clock := { s.clock with sec := r.sec, min := r.min }
          replies := rest, draws := s.draws + 1
          issued := s.issued ++ [xferR16Xfer s.params.nvmDev reg len]
          returned := s.returned ++ [{ ok := true, data := d }] }) ∧
    (∀ r rest, s.replies = r :: rest → r.outcome = .fail →
      exec (.xferR16 s.params.nvmDev reg len) s = .next { s with
        clock := { s.clock with sec := r.sec, min := r.min }
        replies := rest, draws := s.draws + 1
        issued := s.issued ++ [xferR16Xfer s.params.nvmDev reg len]
        returned := s.returned ++ [{ ok := false, data := [] }] }) ∧
    (s.NoReply →
      exec (.xferR16 s.params.nvmDev reg len) s = .next { s with
        inFlight := some { xfer := xferR16Xfer s.params.nvmDev reg len, owner := .bare }
        issued := s.issued ++ [xferR16Xfer s.params.nvmDev reg len] })

/-- R95, for every identity, pointer and length (those of no device the spec describes included: log 12): a transfer run by
itself ends as the Bus Transport answers, and hands back as many bytes as `LEN` says for a read that succeeds, else none;
without a reply it stays in flight. -/
def Obligations.TransferEndsAsTheBusAnswers : Prop :=
  ∀ (s : State) (i : Instr) (x : Xfer), transferOf i = some x → s.inFlight = none →
    (∀ r rest, s.replies = r :: rest → r.outcome ≠ .never →
      ∃ t a, exec i s = .next t ∧ t.inFlight = none ∧ t.replies = rest ∧ t.issued = s.issued ++ [x] ∧
        t.returned = s.returned ++ [a] ∧ (a.ok = true ↔ r.outcome = .ok) ∧
        a.data.length = (if r.outcome = .ok ∧ x.rnw = true then x.len.toNat else 0)) ∧
    (s.NoReply → exec i s = .next { s with
      inFlight := some { xfer := x, owner := .bare }
      issued := s.issued ++ [x] })

/-- R31, R33, R97, R99: only a write to CLK_DEV touches the clock device's RAM and COUNTING, and only a write to NVM_DEV the
NVM, whatever the width of its pointer and its outcome. -/
def Obligations.TransferTouchesItsDeviceOnly : Prop :=
  ∀ (s t : State) (i : Instr) (x : Xfer), s.params.Ok → transferOf i = some x → exec i s = .next t →
    (x.rnw = true ∨ x.dev ≠ s.params.clkDev → t.clock.ram = s.clock.ram ∧ t.clock.counting = s.clock.counting) ∧
    (x.rnw = true ∨ x.dev ≠ s.params.nvmDev → t.nvm = s.nvm)

/-- R96, R98 (corner case LEN = 0): a zero-length transfer to any identity, of either width, changes no peripheral byte,
whatever its outcome, and hands back no data. -/
def Obligations.ZeroLengthTransfersMoveNothing : Prop :=
  ∀ (s t : State) (i : Instr) (dev : DeviceId) (reg : Pointer16),
    (i = .xferW8 dev (lowByte reg) 0 [] ∨ i = .xferR8 dev (lowByte reg) 0 ∨ i = .xferW16 dev reg 0 [] ∨
      i = .xferR16 dev reg 0) → exec i s = .next t →
    t.clock.ram = s.clock.ram ∧ t.clock.counting = s.clock.counting ∧ t.nvm = s.nvm ∧
    (t.returned = s.returned ∨ ∃ a, t.returned = s.returned ++ [a] ∧ a.data = [])

/-! ### Memory -/

/-- Equal memories are equal data: two memories in canonical form that read the same everywhere are the same list. -/
def Obligations.CanonicalMemoriesAreEqual : Prop :=
  ∀ (size : Nat) (m m' : Memory), Memory.wf size m = true → Memory.wf size m' = true → Memory.SameReads m m' → m = m'

/-! ### The reference host -/

/-- R163: the host's transitions are unconditional, and in each state it presents that state's commands. -/
def Obligations.SequencerFollowsItsTable : Prop :=
  ∀ s : State, s.Idle → s.descriptors = [] → s.commands = [] →
    (s.host = .busInit → step s = .next { s with host := .clockInit, commands := Instr.encode .clkInit }) ∧
    (s.host = .clockInit → step s = .next { s with
      host := .selfTestWrite
      commands := Instr.encode (.ramSet (BitVec.ofNat 16 s.params.diagRam.length) s.params.diagRam) ++
        Instr.encode (.nvmSet 0 18 eepromString) }) ∧
    (s.host = .selfTestWrite → step s = .next { s with
      host := .selfTestReadVerify
      commands := Instr.encode (.ramGet (BitVec.ofNat 16 s.params.diagRam.length)) ++
        Instr.encode (.nvmGet 0 18) }) ∧
    (s.host = .selfTestReadVerify ∨ s.host = .pollLoop → step s = .next { s with
      host := .pollLoop
      commands := Instr.encode .getTime })

/-- R164, R168, 95_test_vectors.md V6: with all transfers ok, the self-test reads back exactly what it wrote, for every
DIAG_RAM and every page size R9 allows. -/
def Obligations.SelfTestReadsBackWhatItWrote : Prop :=
  ∀ (s : State) (r₁ r₂ r₃ r₄ : Reply) (rest : List Reply), s.Inv → s.Idle → s.descriptors = [] → s.commands = [] →
    s.host = .clockInit → s.replies = r₁ :: r₂ :: r₃ :: r₄ :: rest →
    r₁.outcome = .ok → r₂.outcome = .ok → r₃.outcome = .ok → r₄.outcome = .ok →
    ∃ t, core.run 6 s = .next t ∧ t.host = .selfTestReadVerify ∧ t.commands = [] ∧
      t.responses = s.responses ++
        [{ status := .ok, data := [] }, { status := .ok, data := [] },
         { status := .ok, data := s.params.diagRam }, { status := .ok, data := eepromString }]

/-- R165, 95_test_vectors.md P4: one cycle of the poll loop with an outcome other than `never`: exactly one transfer is
issued, BUSY = 0 afterwards, TVALID = 1 iff the outcome was ok, and then TIME is the BcdSplit of the two bytes; the host is
in the Poll-Loop again. -/
def Obligations.PollLoopCycle : Prop :=
  ∀ (s : State) (r : Reply) (rest : List Reply), s.params.Ok → s.Idle → s.descriptors = [] → s.commands = [] →
    s.host = .pollLoop → s.replies = r :: rest → r.outcome ≠ .never →
    ∃ t, core.run 2 s = .next t ∧ t.Idle ∧ t.host = .pollLoop ∧ t.commands = [] ∧ t.replies = rest ∧
      t.issued = s.issued ++ [getTimeXfer s.params] ∧ (t.tvalid = true ↔ r.outcome = .ok) ∧
      t.time = (if r.outcome = .ok then TimeReg.ofBytes r.sec r.min else s.time)
end

