-- ==== Sys2Proof/Laws/Decode.lean ====
section
/-! SUPPORT. The laws of the decoder: the two halves of a 16-bit field, the payload, and that the word of an instruction
decodes to its fields. -/

namespace Sys2Proof

theorem joinBytes_getLsbD (a b : Byte) (j : Nat) :
    (joinBytes a b).getLsbD j = if j < 8 then b.getLsbD j else a.getLsbD (j - 8) :=
  (BitVec.getLsbD_append (x := a) (y := b) (i := j)).trans (by cases h : decide (j < 8) <;> simp_all)

@[simp] theorem joinBytes_bytes (v : BitVec 16) : joinBytes (highByte v) (lowByte v) = v := by
  apply BitVec.eq_of_getLsbD_eq
  intro i hi
  rw [joinBytes_getLsbD]
  unfold highByte lowByte
  split
  · simp [*]
  · simp [show 8 + (i - 8) = i by omega, show i - 8 < 8 by omega]

@[simp] theorem highByte_joinBytes (a b : Byte) : highByte (joinBytes a b) = a := by
  unfold highByte
  ext i hi
  rw [BitVec.getElem_extractLsb', joinBytes_getLsbD, if_neg (by omega), BitVec.getLsbD_eq_getElem (by omega)]
  congr 1
  omega

@[simp] theorem lowByte_joinBytes (a b : Byte) : lowByte (joinBytes a b) = b := by
  unfold lowByte
  ext i hi
  rw [BitVec.getElem_extractLsb', joinBytes_getLsbD, if_pos (by omega), BitVec.getLsbD_eq_getElem (by omega)]
  congr 1
  omega

theorem hasBytes_iff : ∀ (n : Nat) (bs : List Byte), hasBytes n bs = true ↔ n ≤ bs.length
  | 0, _ => by simp [hasBytes]
  | n + 1, [] => by simp [hasBytes]
  | n + 1, b :: bs => by simp [hasBytes, hasBytes_iff n bs]

/-- A payload of the right length is taken whole, and what follows it is left. -/
theorem takePayload_append {len : Length} {p : List Byte} (h : p.length = len.toNat) (rest : List Byte) :
    takePayload len (p ++ rest) = .ok (p, rest) := by
  unfold takePayload
  rw [if_pos ((hasBytes_iff _ _).2 (by simp [h]))]
  simp [← h]

theorem takePayload_ok {len : Length} {bs p rest : List Byte} (h : takePayload len bs = .ok (p, rest)) :
    p.length = len.toNat ∧ p ++ rest = bs := by
  unfold takePayload at h
  split at h
  · rename_i h'
    rw [hasBytes_iff] at h'
    cases h
    simp [h']
  · cases h

theorem decodeCommand_commandBytes (opc : Byte) (off : Pointer16) (len : Length) (rest : List Byte) :
    decodeCommand (commandBytes opc off len ++ rest) = decodeCommandFields opc off len rest := by
  simp [commandBytes, decodeCommand]

theorem decodeDescriptor_descriptorBytes (w : Bool) (dev : DeviceId) (r : Bool) (reg : Pointer16) (len : Length)
    (rest : List Byte) :
    decodeDescriptor (descriptorBytes w dev r reg len ++ rest) = decodeDescriptorFields w dev r reg len rest := by
  have h1 : ¬ 2 ≤ ((BitVec.ofBool w).setWidth 8).toNat ∧ ((BitVec.ofBool w).setWidth 8).getLsbD 0 = w := by
    revert w
    decide
  have h2 : ((dev ++ BitVec.ofBool r : BitVec 8)).extractLsb' 1 7 = dev ∧
      ((dev ++ BitVec.ofBool r : BitVec 8)).getLsbD 0 = r := by
    revert dev r
    decide
  simp only [descriptorBytes, List.cons_append, List.nil_append, decodeDescriptor]
  rw [if_neg h1.1, h1.2, h2.1, h2.2, joinBytes_bytes, joinBytes_bytes]

end Sys2Proof
end

