-- ==== Sys2Proof/Laws/Memory.lean ====
section
/-! SUPPORT. The laws of memory: what a read returns after a write, and that every operation keeps the canonical form. -/

namespace Sys2Proof.Machine

theorem Memory.wfFrom_mono {lo lo' size : Nat} (h : lo' ≤ lo) :
    ∀ {m : Memory}, Memory.wfFrom lo size m = true → Memory.wfFrom lo' size m = true
  | [], _ => rfl
  | (a, v) :: m, hm => by
    simp only [Memory.wfFrom, Bool.and_eq_true, decide_eq_true_eq] at hm ⊢
    exact ⟨⟨⟨by omega, hm.1.1.2⟩, hm.1.2⟩, hm.2⟩

/-- Below its first address a memory in canonical form reads as unlisted. -/
theorem Memory.read_below {lo size : Nat} :
    ∀ {m : Memory} {p : Nat}, Memory.wfFrom lo size m = true → p < lo → m.read p = Memory.unlisted
  | [], _, _, _ => rfl
  | (a, v) :: m, p, hm, hp => by
    simp only [Memory.wfFrom, Bool.and_eq_true, decide_eq_true_eq] at hm
    rw [Memory.read, if_neg (by omega), Memory.read_below hm.2 (by omega)]

/-- At or past its size a memory in canonical form reads as unlisted. -/
theorem Memory.read_above {lo size : Nat} :
    ∀ {m : Memory} {p : Nat}, Memory.wfFrom lo size m = true → size ≤ p → m.read p = Memory.unlisted
  | [], _, _, _ => rfl
  | (a, v) :: m, p, hm, hp => by
    simp only [Memory.wfFrom, Bool.and_eq_true, decide_eq_true_eq] at hm
    rw [Memory.read, if_neg (by omega), Memory.read_above hm.2 hp]

/-- A write keeps the canonical form. -/
theorem Memory.wfFrom_write {size p : Nat} (hp : p < size) (b : Byte) :
    ∀ {lo : Nat} {m : Memory}, Memory.wfFrom lo size m = true → lo ≤ p → Memory.wfFrom lo size (m.write p b) = true
  | lo, [], _, hlo => by
    unfold Memory.write
    split <;> simp [Memory.wfFrom, *]
  | lo, (a, v) :: m, hm, hlo => by
    have hm' := hm
    simp only [Memory.wfFrom, Bool.and_eq_true, decide_eq_true_eq] at hm'
    obtain ⟨⟨⟨h1, h2⟩, h3⟩, h4⟩ := hm'
    unfold Memory.write
    split
    · split
      · exact hm
      · simp only [Memory.wfFrom, Bool.and_eq_true, decide_eq_true_eq]
        exact ⟨⟨⟨hlo, hp⟩, ‹_›⟩, ⟨⟨by omega, h2⟩, h3⟩, h4⟩
    · split
      · split
        · exact Memory.wfFrom_mono (by omega) h4
        · subst p
          simp only [Memory.wfFrom, Bool.and_eq_true, decide_eq_true_eq]
          exact ⟨⟨⟨h1, h2⟩, ‹_›⟩, h4⟩
      · simp only [Memory.wfFrom, Bool.and_eq_true, decide_eq_true_eq]
        exact ⟨⟨⟨h1, h2⟩, h3⟩, Memory.wfFrom_write hp b h4 (by omega)⟩

theorem Memory.wf_write {size p : Nat} {m : Memory} (b : Byte) (hm : Memory.wf size m = true) (hp : p < size) :
    Memory.wf size (m.write p b) = true :=
  Memory.wfFrom_write hp b hm (Nat.zero_le _)

/-- A block write inside the region keeps the canonical form. -/
theorem Memory.wf_writeBytes {size : Nat} :
    ∀ (bs : List Byte) {p : Nat} {m : Memory}, Memory.wf size m = true → p + bs.length ≤ size →
      Memory.wf size (m.writeBytes p bs) = true
  | [], _, _, hm, _ => hm
  | b :: bs, p, m, hm, hp => by
    simp only [List.length_cons] at hp
    exact Memory.wf_writeBytes bs (Memory.wf_write b hm (by omega)) (by omega)

@[simp] theorem freeBytes_length (k n : Nat) : (freeBytes k n).length = n := by simp [freeBytes]

theorem Memory.wf_allFree (size k : Nat) : Memory.wf size (Memory.allFree size k) = true := by
  unfold Memory.allFree
  exact Memory.wf_writeBytes _ rfl (by simp)

/-- A write leaves every other byte alone. -/
theorem Memory.read_write_other {p q : Nat} (h : q ≠ p) (b : Byte) :
    ∀ m : Memory, (m.write p b).read q = m.read q
  | [] => by
    unfold Memory.write
    split
    · rfl
    · simp [Memory.read, Ne.symm h]
  | (a, v) :: m => by
    unfold Memory.write
    split
    · split
      · rfl
      · rw [Memory.read, if_neg (Ne.symm h)]
    · split
      · subst a
        split
        · rw [Memory.read, if_neg (Ne.symm h)]
        · rw [Memory.read, Memory.read, if_neg (Ne.symm h), if_neg (Ne.symm h)]
      · rw [Memory.read, Memory.read, Memory.read_write_other h b m]

/-- A read of the byte just written gives that byte. -/
theorem Memory.read_write_same {size p : Nat} (b : Byte) :
    ∀ {lo : Nat} {m : Memory}, Memory.wfFrom lo size m = true → (m.write p b).read p = b
  | _, [], _ => by
    unfold Memory.write
    split
    · simp [Memory.read, *]
    · simp [Memory.read]
  | _, (a, v) :: m, hm => by
    simp only [Memory.wfFrom, Bool.and_eq_true, decide_eq_true_eq] at hm
    obtain ⟨⟨⟨h1, h2⟩, h3⟩, h4⟩ := hm
    unfold Memory.write
    split
    · split
      · rw [Memory.read, if_neg (by omega), Memory.read_below h4 (by omega), ‹b = _›]
      · simp [Memory.read]
    · split
      · split
        · subst a
          rw [Memory.read_below h4 (by omega), ‹b = _›]
        · simp [Memory.read]
      · rw [Memory.read, if_neg (by omega), Memory.read_write_same b h4]

/-- A block write leaves every byte outside its range alone. -/
theorem Memory.read_writeBytes_outside {q : Nat} :
    ∀ (bs : List Byte) (m : Memory) (p : Nat), q < p ∨ p + bs.length ≤ q → (m.writeBytes p bs).read q = m.read q
  | [], _, _, _ => rfl
  | b :: bs, m, p, h => by
    simp only [List.length_cons] at h
    rw [Memory.writeBytes, Memory.read_writeBytes_outside bs _ _ (by omega),
      Memory.read_write_other (by omega)]

/-- A block write stores byte `i` at address `p + i`. -/
theorem Memory.read_writeBytes_inside {size : Nat} :
    ∀ (bs : List Byte) {m : Memory} {p : Nat}, Memory.wf size m = true → p + bs.length ≤ size →
      ∀ (i : Nat) (h : i < bs.length), (m.writeBytes p bs).read (p + i) = bs[i]
  | b :: bs, m, p, hm, hp, i, hi => by
    simp only [List.length_cons] at hp hi
    have hm' := Memory.wf_write b hm (p := p) (by omega)
    rw [Memory.writeBytes]
    cases i with
    | zero =>
      rw [Memory.read_writeBytes_outside bs _ _ (by omega)]
      simpa using Memory.read_write_same b hm
    | succ i =>
      have := Memory.read_writeBytes_inside bs hm' (p := p + 1) (by omega) i (by omega)
      simpa [Nat.add_assoc, Nat.add_comm 1 i] using this

@[simp] theorem Memory.readBytes_length (m : Memory) (p n : Nat) : (m.readBytes p n).length = n := by
  simp [Memory.readBytes]

/-- Byte `i` of a block read is the byte at address `p + i` (R46). -/
theorem Memory.readBytes_getElem? (m : Memory) (p n i : Nat) (h : i < n) :
    (m.readBytes p n)[i]? = some (m.read (p + i)) := by
  simp [Memory.readBytes, h]

/-- A block write of `n` equal bytes from address 0 up. -/
theorem Memory.read_writeBytes_replicate {size n : Nat} {m : Memory} (hm : Memory.wf size m = true) (b : Byte)
    (hn : n ≤ size) (p : Nat) (hp : p < n) : (m.writeBytes 0 (List.replicate n b)).read p = b := by
  have h := Memory.read_writeBytes_inside (List.replicate n b) hm (p := 0) (by simpa using hn) p (by simpa using hp)
  rwa [Nat.zero_add, List.getElem_replicate] at h

/-- A block read of bytes just written gives them back. -/
theorem Memory.readBytes_writeBytes {size : Nat} (bs : List Byte) {m : Memory} {p n : Nat}
    (hm : Memory.wf size m = true) (hp : p + bs.length ≤ size) (hn : n ≤ bs.length) :
    (m.writeBytes p bs).readBytes p n = bs.take n := by
  apply List.ext_getElem?
  intro i
  by_cases h : i < n
  · rw [Memory.readBytes_getElem? _ _ _ _ h, Memory.read_writeBytes_inside bs hm hp i (by omega)]
    simp [h, show i < bs.length by omega]
  · simp [Memory.readBytes, h]

end Sys2Proof.Machine
end

