-- ==== Sys2Proof/Laws/State.lean ====
section
/-! SUPPORT. One lemma per field per named update of the state, so that no later proof unfolds a record update; and the
frame of what a transfer does to the peripherals. -/

namespace Sys2Proof.Machine

/-! ### Setting BUSY -/

@[simp] theorem State.occupy_params (s : State) :
    (s.occupy).params = s.params := rfl

@[simp] theorem State.occupy_time (s : State) :
    (s.occupy).time = s.time := rfl

@[simp] theorem State.occupy_tvalid (s : State) :
    (s.occupy).tvalid = s.tvalid := rfl

@[simp] theorem State.occupy_busy (s : State) :
    (s.occupy).busy = true := rfl

@[simp] theorem State.occupy_inFlight (s : State) :
    (s.occupy).inFlight = s.inFlight := rfl

@[simp] theorem State.occupy_clock (s : State) :
    (s.occupy).clock = s.clock := rfl

@[simp] theorem State.occupy_nvm (s : State) :
    (s.occupy).nvm = s.nvm := rfl

@[simp] theorem State.occupy_host (s : State) :
    (s.occupy).host = s.host := rfl

@[simp] theorem State.occupy_powerOn (s : State) :
    (s.occupy).powerOn = s.powerOn := rfl

@[simp] theorem State.occupy_commands (s : State) :
    (s.occupy).commands = s.commands := rfl

@[simp] theorem State.occupy_descriptors (s : State) :
    (s.occupy).descriptors = s.descriptors := rfl

@[simp] theorem State.occupy_replies (s : State) :
    (s.occupy).replies = s.replies := rfl

@[simp] theorem State.occupy_issued (s : State) :
    (s.occupy).issued = s.issued := rfl

@[simp] theorem State.occupy_returned (s : State) :
    (s.occupy).returned = s.returned := rfl

@[simp] theorem State.occupy_responses (s : State) :
    (s.occupy).responses = s.responses := rfl

@[simp] theorem State.occupy_draws (s : State) :
    (s.occupy).draws = s.draws := rfl

/-! ### Handing a transfer over -/

@[simp] theorem State.handOver_params (x : Xfer) (s : State) :
    (s.handOver x).params = s.params := rfl

@[simp] theorem State.handOver_time (x : Xfer) (s : State) :
    (s.handOver x).time = s.time := rfl

@[simp] theorem State.handOver_tvalid (x : Xfer) (s : State) :
    (s.handOver x).tvalid = s.tvalid := rfl

@[simp] theorem State.handOver_busy (x : Xfer) (s : State) :
    (s.handOver x).busy = s.busy := rfl

@[simp] theorem State.handOver_inFlight (x : Xfer) (s : State) :
    (s.handOver x).inFlight = s.inFlight := rfl

@[simp] theorem State.handOver_clock (x : Xfer) (s : State) :
    (s.handOver x).clock = s.clock := rfl

@[simp] theorem State.handOver_nvm (x : Xfer) (s : State) :
    (s.handOver x).nvm = s.nvm := rfl

@[simp] theorem State.handOver_host (x : Xfer) (s : State) :
    (s.handOver x).host = s.host := rfl

@[simp] theorem State.handOver_powerOn (x : Xfer) (s : State) :
    (s.handOver x).powerOn = s.powerOn := rfl

@[simp] theorem State.handOver_commands (x : Xfer) (s : State) :
    (s.handOver x).commands = s.commands := rfl

@[simp] theorem State.handOver_descriptors (x : Xfer) (s : State) :
    (s.handOver x).descriptors = s.descriptors := rfl

@[simp] theorem State.handOver_replies (x : Xfer) (s : State) :
    (s.handOver x).replies = s.replies := rfl

@[simp] theorem State.handOver_issued (x : Xfer) (s : State) :
    (s.handOver x).issued = s.issued ++ [x] := rfl

@[simp] theorem State.handOver_returned (x : Xfer) (s : State) :
    (s.handOver x).returned = s.returned := rfl

@[simp] theorem State.handOver_responses (x : Xfer) (s : State) :
    (s.handOver x).responses = s.responses := rfl

@[simp] theorem State.handOver_draws (x : Xfer) (s : State) :
    (s.handOver x).draws = s.draws := rfl

/-! ### Holding a transfer in flight -/

@[simp] theorem State.hold_params (x : Xfer) (o : Owner) (s : State) :
    (s.hold x o).params = s.params := rfl

@[simp] theorem State.hold_time (x : Xfer) (o : Owner) (s : State) :
    (s.hold x o).time = s.time := rfl

@[simp] theorem State.hold_tvalid (x : Xfer) (o : Owner) (s : State) :
    (s.hold x o).tvalid = s.tvalid := rfl

@[simp] theorem State.hold_busy (x : Xfer) (o : Owner) (s : State) :
    (s.hold x o).busy = s.busy := rfl

@[simp] theorem State.hold_inFlight (x : Xfer) (o : Owner) (s : State) :
    (s.hold x o).inFlight = some { xfer := x, owner := o } := rfl

@[simp] theorem State.hold_clock (x : Xfer) (o : Owner) (s : State) :
    (s.hold x o).clock = s.clock := rfl

@[simp] theorem State.hold_nvm (x : Xfer) (o : Owner) (s : State) :
    (s.hold x o).nvm = s.nvm := rfl

@[simp] theorem State.hold_host (x : Xfer) (o : Owner) (s : State) :
    (s.hold x o).host = s.host := rfl

@[simp] theorem State.hold_powerOn (x : Xfer) (o : Owner) (s : State) :
    (s.hold x o).powerOn = s.powerOn := rfl

@[simp] theorem State.hold_commands (x : Xfer) (o : Owner) (s : State) :
    (s.hold x o).commands = s.commands := rfl

@[simp] theorem State.hold_descriptors (x : Xfer) (o : Owner) (s : State) :
    (s.hold x o).descriptors = s.descriptors := rfl

@[simp] theorem State.hold_replies (x : Xfer) (o : Owner) (s : State) :
    (s.hold x o).replies = s.replies := rfl

@[simp] theorem State.hold_issued (x : Xfer) (o : Owner) (s : State) :
    (s.hold x o).issued = s.issued := rfl

@[simp] theorem State.hold_returned (x : Xfer) (o : Owner) (s : State) :
    (s.hold x o).returned = s.returned := rfl

@[simp] theorem State.hold_responses (x : Xfer) (o : Owner) (s : State) :
    (s.hold x o).responses = s.responses := rfl

@[simp] theorem State.hold_draws (x : Xfer) (o : Owner) (s : State) :
    (s.hold x o).draws = s.draws := rfl

/-! ### Taking a reply -/

@[simp] theorem State.receive_params (r : Reply) (rest : List Reply) (s : State) :
    (s.receive r rest).params = s.params := rfl

@[simp] theorem State.receive_time (r : Reply) (rest : List Reply) (s : State) :
    (s.receive r rest).time = s.time := rfl

@[simp] theorem State.receive_tvalid (r : Reply) (rest : List Reply) (s : State) :
    (s.receive r rest).tvalid = s.tvalid := rfl

@[simp] theorem State.receive_busy (r : Reply) (rest : List Reply) (s : State) :
    (s.receive r rest).busy = s.busy := rfl

@[simp] theorem State.receive_inFlight (r : Reply) (rest : List Reply) (s : State) :
    (s.receive r rest).inFlight = none := rfl

@[simp] theorem State.receive_clock (r : Reply) (rest : List Reply) (s : State) :
    (s.receive r rest).clock = { s.clock with sec := r.sec, min := r.min } := rfl

@[simp] theorem State.receive_nvm (r : Reply) (rest : List Reply) (s : State) :
    (s.receive r rest).nvm = s.nvm := rfl

@[simp] theorem State.receive_host (r : Reply) (rest : List Reply) (s : State) :
    (s.receive r rest).host = s.host := rfl

@[simp] theorem State.receive_powerOn (r : Reply) (rest : List Reply) (s : State) :
    (s.receive r rest).powerOn = s.powerOn := rfl

@[simp] theorem State.receive_commands (r : Reply) (rest : List Reply) (s : State) :
    (s.receive r rest).commands = s.commands := rfl

@[simp] theorem State.receive_descriptors (r : Reply) (rest : List Reply) (s : State) :
    (s.receive r rest).descriptors = s.descriptors := rfl

@[simp] theorem State.receive_replies (r : Reply) (rest : List Reply) (s : State) :
    (s.receive r rest).replies = rest := rfl

@[simp] theorem State.receive_issued (r : Reply) (rest : List Reply) (s : State) :
    (s.receive r rest).issued = s.issued := rfl

@[simp] theorem State.receive_returned (r : Reply) (rest : List Reply) (s : State) :
    (s.receive r rest).returned = s.returned := rfl

@[simp] theorem State.receive_responses (r : Reply) (rest : List Reply) (s : State) :
    (s.receive r rest).responses = s.responses := rfl

@[simp] theorem State.receive_draws (r : Reply) (rest : List Reply) (s : State) :
    (s.receive r rest).draws = s.draws + 1 := rfl

/-! ### Presenting a response -/

@[simp] theorem State.complete_params (st : Status) (d : List Byte) (s : State) :
    (s.complete st d).params = s.params := rfl

@[simp] theorem State.complete_time (st : Status) (d : List Byte) (s : State) :
    (s.complete st d).time = s.time := rfl

@[simp] theorem State.complete_tvalid (st : Status) (d : List Byte) (s : State) :
    (s.complete st d).tvalid = s.tvalid := rfl

@[simp] theorem State.complete_busy (st : Status) (d : List Byte) (s : State) :
    (s.complete st d).busy = false := rfl

@[simp] theorem State.complete_inFlight (st : Status) (d : List Byte) (s : State) :
    (s.complete st d).inFlight = s.inFlight := rfl

@[simp] theorem State.complete_clock (st : Status) (d : List Byte) (s : State) :
    (s.complete st d).clock = s.clock := rfl

@[simp] theorem State.complete_nvm (st : Status) (d : List Byte) (s : State) :
    (s.complete st d).nvm = s.nvm := rfl

@[simp] theorem State.complete_host (st : Status) (d : List Byte) (s : State) :
    (s.complete st d).host = s.host := rfl

@[simp] theorem State.complete_powerOn (st : Status) (d : List Byte) (s : State) :
    (s.complete st d).powerOn = s.powerOn := rfl

@[simp] theorem State.complete_commands (st : Status) (d : List Byte) (s : State) :
    (s.complete st d).commands = s.commands := rfl

@[simp] theorem State.complete_descriptors (st : Status) (d : List Byte) (s : State) :
    (s.complete st d).descriptors = s.descriptors := rfl

@[simp] theorem State.complete_replies (st : Status) (d : List Byte) (s : State) :
    (s.complete st d).replies = s.replies := rfl

@[simp] theorem State.complete_issued (st : Status) (d : List Byte) (s : State) :
    (s.complete st d).issued = s.issued := rfl

@[simp] theorem State.complete_returned (st : Status) (d : List Byte) (s : State) :
    (s.complete st d).returned = s.returned := rfl

@[simp] theorem State.complete_responses (st : Status) (d : List Byte) (s : State) :
    (s.complete st d).responses = s.responses ++ [{ status := st, data := d }] := rfl

@[simp] theorem State.complete_draws (st : Status) (d : List Byte) (s : State) :
    (s.complete st d).draws = s.draws := rfl

/-! ### Raising an error -/

@[simp] theorem State.raise_params (e : Status) (s : State) :
    (s.raise e).params = s.params := rfl

@[simp] theorem State.raise_time (e : Status) (s : State) :
    (s.raise e).time = s.time := rfl

@[simp] theorem State.raise_tvalid (e : Status) (s : State) :
    (s.raise e).tvalid = s.tvalid := rfl

@[simp] theorem State.raise_busy (e : Status) (s : State) :
    (s.raise e).busy = false := rfl

@[simp] theorem State.raise_inFlight (e : Status) (s : State) :
    (s.raise e).inFlight = s.inFlight := rfl

@[simp] theorem State.raise_clock (e : Status) (s : State) :
    (s.raise e).clock = s.clock := rfl

@[simp] theorem State.raise_nvm (e : Status) (s : State) :
    (s.raise e).nvm = s.nvm := rfl

@[simp] theorem State.raise_host (e : Status) (s : State) :
    (s.raise e).host = s.host := rfl

@[simp] theorem State.raise_powerOn (e : Status) (s : State) :
    (s.raise e).powerOn = s.powerOn := rfl

@[simp] theorem State.raise_commands (e : Status) (s : State) :
    (s.raise e).commands = s.commands := rfl

@[simp] theorem State.raise_descriptors (e : Status) (s : State) :
    (s.raise e).descriptors = s.descriptors := rfl

@[simp] theorem State.raise_replies (e : Status) (s : State) :
    (s.raise e).replies = s.replies := rfl

@[simp] theorem State.raise_issued (e : Status) (s : State) :
    (s.raise e).issued = s.issued := rfl

@[simp] theorem State.raise_returned (e : Status) (s : State) :
    (s.raise e).returned = s.returned := rfl

@[simp] theorem State.raise_responses (e : Status) (s : State) :
    (s.raise e).responses = s.responses ++ [{ status := e, data := [] }] := rfl

@[simp] theorem State.raise_draws (e : Status) (s : State) :
    (s.raise e).draws = s.draws := rfl

/-! ### The reference host's turn -/

@[simp] theorem State.sequencerTurn_params (s : State) :
    (s.sequencerTurn).params = s.params := rfl

@[simp] theorem State.sequencerTurn_time (s : State) :
    (s.sequencerTurn).time = s.time := rfl

@[simp] theorem State.sequencerTurn_tvalid (s : State) :
    (s.sequencerTurn).tvalid = s.tvalid := rfl

@[simp] theorem State.sequencerTurn_busy (s : State) :
    (s.sequencerTurn).busy = s.busy := rfl

@[simp] theorem State.sequencerTurn_inFlight (s : State) :
    (s.sequencerTurn).inFlight = s.inFlight := rfl

@[simp] theorem State.sequencerTurn_clock (s : State) :
    (s.sequencerTurn).clock = s.clock := rfl

@[simp] theorem State.sequencerTurn_nvm (s : State) :
    (s.sequencerTurn).nvm = s.nvm := rfl

@[simp] theorem State.sequencerTurn_host (s : State) :
    (s.sequencerTurn).host = s.host.succ := rfl

@[simp] theorem State.sequencerTurn_powerOn (s : State) :
    (s.sequencerTurn).powerOn = s.powerOn := rfl

@[simp] theorem State.sequencerTurn_commands (s : State) :
    (s.sequencerTurn).commands = (s.host.succ.program s.params).flatMap Instr.encode := rfl

@[simp] theorem State.sequencerTurn_descriptors (s : State) :
    (s.sequencerTurn).descriptors = s.descriptors := rfl

@[simp] theorem State.sequencerTurn_replies (s : State) :
    (s.sequencerTurn).replies = s.replies := rfl

@[simp] theorem State.sequencerTurn_issued (s : State) :
    (s.sequencerTurn).issued = s.issued := rfl

@[simp] theorem State.sequencerTurn_returned (s : State) :
    (s.sequencerTurn).returned = s.returned := rfl

@[simp] theorem State.sequencerTurn_responses (s : State) :
    (s.sequencerTurn).responses = s.responses := rfl

@[simp] theorem State.sequencerTurn_draws (s : State) :
    (s.sequencerTurn).draws = s.draws := rfl

/-! ### The effect of a write transfer -/

@[simp] theorem Xfer.store_params (x : Xfer) (ok : Bool) (s : State) :
    (x.store ok s).params = s.params := by
  unfold Xfer.store; split <;> try split
  all_goals simp_all

@[simp] theorem Xfer.store_time (x : Xfer) (ok : Bool) (s : State) :
    (x.store ok s).time = s.time := by
  unfold Xfer.store; split <;> try split
  all_goals simp_all

@[simp] theorem Xfer.store_tvalid (x : Xfer) (ok : Bool) (s : State) :
    (x.store ok s).tvalid = s.tvalid := by
  unfold Xfer.store; split <;> try split
  all_goals simp_all

@[simp] theorem Xfer.store_busy (x : Xfer) (ok : Bool) (s : State) :
    (x.store ok s).busy = s.busy := by
  unfold Xfer.store; split <;> try split
  all_goals simp_all

@[simp] theorem Xfer.store_inFlight (x : Xfer) (ok : Bool) (s : State) :
    (x.store ok s).inFlight = s.inFlight := by
  unfold Xfer.store; split <;> try split
  all_goals simp_all

@[simp] theorem Xfer.store_clock (x : Xfer) (ok : Bool) (s : State) :
    (x.store ok s).clock = if x.dev = s.params.clkDev then x.clockAfter ok s else s.clock := by
  unfold Xfer.store; split <;> try split
  all_goals simp_all

@[simp] theorem Xfer.store_nvm (x : Xfer) (ok : Bool) (s : State) :
    (x.store ok s).nvm = if x.dev ≠ s.params.clkDev ∧ x.dev = s.params.nvmDev then x.nvmAfter ok s else s.nvm := by
  unfold Xfer.store; split <;> try split
  all_goals simp_all

@[simp] theorem Xfer.store_host (x : Xfer) (ok : Bool) (s : State) :
    (x.store ok s).host = s.host := by
  unfold Xfer.store; split <;> try split
  all_goals simp_all

@[simp] theorem Xfer.store_powerOn (x : Xfer) (ok : Bool) (s : State) :
    (x.store ok s).powerOn = s.powerOn := by
  unfold Xfer.store; split <;> try split
  all_goals simp_all

@[simp] theorem Xfer.store_commands (x : Xfer) (ok : Bool) (s : State) :
    (x.store ok s).commands = s.commands := by
  unfold Xfer.store; split <;> try split
  all_goals simp_all

@[simp] theorem Xfer.store_descriptors (x : Xfer) (ok : Bool) (s : State) :
    (x.store ok s).descriptors = s.descriptors := by
  unfold Xfer.store; split <;> try split
  all_goals simp_all

@[simp] theorem Xfer.store_replies (x : Xfer) (ok : Bool) (s : State) :
    (x.store ok s).replies = s.replies := by
  unfold Xfer.store; split <;> try split
  all_goals simp_all

@[simp] theorem Xfer.store_issued (x : Xfer) (ok : Bool) (s : State) :
    (x.store ok s).issued = s.issued := by
  unfold Xfer.store; split <;> try split
  all_goals simp_all

@[simp] theorem Xfer.store_returned (x : Xfer) (ok : Bool) (s : State) :
    (x.store ok s).returned = s.returned := by
  unfold Xfer.store; split <;> try split
  all_goals simp_all

@[simp] theorem Xfer.store_responses (x : Xfer) (ok : Bool) (s : State) :
    (x.store ok s).responses = s.responses := by
  unfold Xfer.store; split <;> try split
  all_goals simp_all

@[simp] theorem Xfer.store_draws (x : Xfer) (ok : Bool) (s : State) :
    (x.store ok s).draws = s.draws := by
  unfold Xfer.store; split <;> try split
  all_goals simp_all

/-! ### The effect of a transfer -/

@[simp] theorem Xfer.effect_params (x : Xfer) (ok : Bool) (s : State) :
    (x.effect ok s).params = s.params := by
  unfold Xfer.effect; split <;> simp_all

@[simp] theorem Xfer.effect_time (x : Xfer) (ok : Bool) (s : State) :
    (x.effect ok s).time = s.time := by
  unfold Xfer.effect; split <;> simp_all

@[simp] theorem Xfer.effect_tvalid (x : Xfer) (ok : Bool) (s : State) :
    (x.effect ok s).tvalid = s.tvalid := by
  unfold Xfer.effect; split <;> simp_all

@[simp] theorem Xfer.effect_busy (x : Xfer) (ok : Bool) (s : State) :
    (x.effect ok s).busy = s.busy := by
  unfold Xfer.effect; split <;> simp_all

@[simp] theorem Xfer.effect_inFlight (x : Xfer) (ok : Bool) (s : State) :
    (x.effect ok s).inFlight = s.inFlight := by
  unfold Xfer.effect; split <;> simp_all

@[simp] theorem Xfer.effect_clock (x : Xfer) (ok : Bool) (s : State) :
    (x.effect ok s).clock = if x.rnw then s.clock else (x.store ok s).clock := by
  unfold Xfer.effect; split <;> simp_all

@[simp] theorem Xfer.effect_nvm (x : Xfer) (ok : Bool) (s : State) :
    (x.effect ok s).nvm = if x.rnw then s.nvm else (x.store ok s).nvm := by
  unfold Xfer.effect; split <;> simp_all

@[simp] theorem Xfer.effect_host (x : Xfer) (ok : Bool) (s : State) :
    (x.effect ok s).host = s.host := by
  unfold Xfer.effect; split <;> simp_all

@[simp] theorem Xfer.effect_powerOn (x : Xfer) (ok : Bool) (s : State) :
    (x.effect ok s).powerOn = s.powerOn := by
  unfold Xfer.effect; split <;> simp_all

@[simp] theorem Xfer.effect_commands (x : Xfer) (ok : Bool) (s : State) :
    (x.effect ok s).commands = s.commands := by
  unfold Xfer.effect; split <;> simp_all

@[simp] theorem Xfer.effect_descriptors (x : Xfer) (ok : Bool) (s : State) :
    (x.effect ok s).descriptors = s.descriptors := by
  unfold Xfer.effect; split <;> simp_all

@[simp] theorem Xfer.effect_replies (x : Xfer) (ok : Bool) (s : State) :
    (x.effect ok s).replies = s.replies := by
  unfold Xfer.effect; split <;> simp_all

@[simp] theorem Xfer.effect_issued (x : Xfer) (ok : Bool) (s : State) :
    (x.effect ok s).issued = s.issued := by
  unfold Xfer.effect; split <;> simp_all

@[simp] theorem Xfer.effect_returned (x : Xfer) (ok : Bool) (s : State) :
    (x.effect ok s).returned = s.returned := by
  unfold Xfer.effect; split <;> simp_all

@[simp] theorem Xfer.effect_responses (x : Xfer) (ok : Bool) (s : State) :
    (x.effect ok s).responses = s.responses := by
  unfold Xfer.effect; split <;> simp_all

@[simp] theorem Xfer.effect_draws (x : Xfer) (ok : Bool) (s : State) :
    (x.effect ok s).draws = s.draws := by
  unfold Xfer.effect; split <;> simp_all

/-! ### A completed transfer -/

@[simp] theorem State.answer_params (x : Xfer) (r : Reply) (rest : List Reply) (ok : Bool) (s : State) :
    (s.answer x r rest ok).params = s.params := by
  simp [State.answer]

@[simp] theorem State.answer_time (x : Xfer) (r : Reply) (rest : List Reply) (ok : Bool) (s : State) :
    (s.answer x r rest ok).time = s.time := by
  simp [State.answer]

@[simp] theorem State.answer_tvalid (x : Xfer) (r : Reply) (rest : List Reply) (ok : Bool) (s : State) :
    (s.answer x r rest ok).tvalid = s.tvalid := by
  simp [State.answer]

@[simp] theorem State.answer_busy (x : Xfer) (r : Reply) (rest : List Reply) (ok : Bool) (s : State) :
    (s.answer x r rest ok).busy = s.busy := by
  simp [State.answer]

@[simp] theorem State.answer_inFlight (x : Xfer) (r : Reply) (rest : List Reply) (ok : Bool) (s : State) :
    (s.answer x r rest ok).inFlight = none := by
  simp [State.answer]

@[simp] theorem State.answer_clock (x : Xfer) (r : Reply) (rest : List Reply) (ok : Bool) (s : State) :
    (s.answer x r rest ok).clock = (x.effect ok (s.receive r rest)).clock := by
  simp [State.answer]

@[simp] theorem State.answer_nvm (x : Xfer) (r : Reply) (rest : List Reply) (ok : Bool) (s : State) :
    (s.answer x r rest ok).nvm = (x.effect ok (s.receive r rest)).nvm := by
  simp [State.answer]

@[simp] theorem State.answer_host (x : Xfer) (r : Reply) (rest : List Reply) (ok : Bool) (s : State) :
    (s.answer x r rest ok).host = s.host := by
  simp [State.answer]

@[simp] theorem State.answer_powerOn (x : Xfer) (r : Reply) (rest : List Reply) (ok : Bool) (s : State) :
    (s.answer x r rest ok).powerOn = s.powerOn := by
  simp [State.answer]

@[simp] theorem State.answer_commands (x : Xfer) (r : Reply) (rest : List Reply) (ok : Bool) (s : State) :
    (s.answer x r rest ok).commands = s.commands := by
  simp [State.answer]

@[simp] theorem State.answer_descriptors (x : Xfer) (r : Reply) (rest : List Reply) (ok : Bool) (s : State) :
    (s.answer x r rest ok).descriptors = s.descriptors := by
  simp [State.answer]

@[simp] theorem State.answer_replies (x : Xfer) (r : Reply) (rest : List Reply) (ok : Bool) (s : State) :
    (s.answer x r rest ok).replies = rest := by
  simp [State.answer]

@[simp] theorem State.answer_issued (x : Xfer) (r : Reply) (rest : List Reply) (ok : Bool) (s : State) :
    (s.answer x r rest ok).issued = s.issued := by
  simp [State.answer]

@[simp] theorem State.answer_returned (x : Xfer) (r : Reply) (rest : List Reply) (ok : Bool) (s : State) :
    (s.answer x r rest ok).returned = s.returned ++ [{ ok := ok, data := x.data ok (s.receive r rest) }] := by
  simp [State.answer]

@[simp] theorem State.answer_responses (x : Xfer) (r : Reply) (rest : List Reply) (ok : Bool) (s : State) :
    (s.answer x r rest ok).responses = s.responses := by
  simp [State.answer]

@[simp] theorem State.answer_draws (x : Xfer) (r : Reply) (rest : List Reply) (ok : Bool) (s : State) :
    (s.answer x r rest ok).draws = s.draws + 1 := by
  simp [State.answer]

/-! ### Abandoning the transfer in flight -/

@[simp] theorem State.abandon_params (s : State) :
    (s.abandon).params = s.params := by
  unfold State.abandon; split <;> simp

@[simp] theorem State.abandon_time (s : State) :
    (s.abandon).time = s.time := by
  unfold State.abandon; split <;> simp

@[simp] theorem State.abandon_tvalid (s : State) :
    (s.abandon).tvalid = s.tvalid := by
  unfold State.abandon; split <;> simp

@[simp] theorem State.abandon_busy (s : State) :
    (s.abandon).busy = s.busy := by
  unfold State.abandon; split <;> simp

@[simp] theorem State.abandon_inFlight (s : State) :
    (s.abandon).inFlight = s.inFlight := by
  unfold State.abandon; split <;> simp

@[simp] theorem State.abandon_host (s : State) :
    (s.abandon).host = s.host := by
  unfold State.abandon; split <;> simp

@[simp] theorem State.abandon_powerOn (s : State) :
    (s.abandon).powerOn = s.powerOn := by
  unfold State.abandon; split <;> simp

@[simp] theorem State.abandon_commands (s : State) :
    (s.abandon).commands = s.commands := by
  unfold State.abandon; split <;> simp

@[simp] theorem State.abandon_descriptors (s : State) :
    (s.abandon).descriptors = s.descriptors := by
  unfold State.abandon; split <;> simp

@[simp] theorem State.abandon_replies (s : State) :
    (s.abandon).replies = s.replies := by
  unfold State.abandon; split <;> simp

@[simp] theorem State.abandon_issued (s : State) :
    (s.abandon).issued = s.issued := by
  unfold State.abandon; split <;> simp

@[simp] theorem State.abandon_returned (s : State) :
    (s.abandon).returned = s.returned := by
  unfold State.abandon; split <;> simp

@[simp] theorem State.abandon_responses (s : State) :
    (s.abandon).responses = s.responses := by
  unfold State.abandon; split <;> simp

@[simp] theorem State.abandon_draws (s : State) :
    (s.abandon).draws = s.draws := by
  unfold State.abandon; split <;> simp

end Sys2Proof.Machine
end

