-- ==== Sys2Proof/Laws/Ops.lean ====
section
/-! SUPPORT. One law per shared operation, saying once what it can do; the meanings and the step are read through these. -/

namespace Sys2Proof.Machine

/-! ### The block is ready -/

theorem State.ready_iff (s : State) : s.ready = true ↔ s.busy = false ∧ s.inFlight = none := by
  cases h : s.busy <;> cases h' : s.inFlight <;> simp [State.ready, h, h']

/-- What accepting a command does. -/
theorem State.accept_ready {s : State} (h : s.ready = true) (run : State → State) :
    s.accept run = .next (run s.occupy) := by
  simp [State.accept, h]

theorem State.accept_notReady {s : State} (h : s.ready = false) (run : State → State) : s.accept run = .next s := by
  simp [State.accept, h]

/-- Every instruction ends in a next state: nothing traps (R140, R145). -/
theorem exec_isNext (i : Instr) (s : State) : ∃ t, exec i s = .next t := by
  cases i <;> exact ⟨_, rfl⟩

/-! ### Waiting for a transfer -/

/-- Without a reply the transfer is in flight. -/
theorem State.await_noReply {s : State} (h : s.NoReply) (x : Xfer) (o : Owner)
    (fin : Bool → List Byte → State → State) :
    s.await x o fin = s.hold x o := by
  obtain h | ⟨r, rest, h, h'⟩ := h <;> simp [State.await, *]

theorem State.await_ok {s : State} {r : Reply} {rest : List Reply} (h : s.replies = r :: rest) (ho : r.outcome = .ok)
    (x : Xfer) (o : Owner) (fin : Bool → List Byte → State → State) :
    s.await x o fin = fin true (x.data true (s.receive r rest)) (s.answer x r rest true) := by
  simp [State.await, h, ho]

theorem State.await_fail {s : State} {r : Reply} {rest : List Reply} (h : s.replies = r :: rest)
    (ho : r.outcome = .fail) (x : Xfer) (o : Owner) (fin : Bool → List Byte → State → State) :
    s.await x o fin = fin false (x.data false (s.receive r rest)) (s.answer x r rest false) := by
  simp [State.await, h, ho]

/-- All that waiting for a transfer can do. -/
theorem State.await_cases (s : State) (x : Xfer) (o : Owner) (fin : Bool → List Byte → State → State) :
    (s.NoReply ∧ s.await x o fin = s.hold x o) ∨
    ∃ r rest ok, s.replies = r :: rest ∧ r.outcome = (if ok then .ok else .fail) ∧
      s.await x o fin = fin ok (x.data ok (s.receive r rest)) (s.answer x r rest ok) := by
  obtain ⟨l, h⟩ : ∃ l, s.replies = l := ⟨_, rfl⟩
  cases l with
  | nil => exact .inl ⟨.inl h, State.await_noReply (.inl h) x o fin⟩
  | cons r rest =>
    cases ho : r.outcome with
    | never => exact .inl ⟨.inr ⟨r, rest, h, ho⟩, State.await_noReply (.inr ⟨r, rest, h, ho⟩) x o fin⟩
    | ok => exact .inr ⟨r, rest, true, h, by simp [ho], State.await_ok h ho x o fin⟩
    | fail => exact .inr ⟨r, rest, false, h, by simp [ho], State.await_fail h ho x o fin⟩

/-- A property that receiving an answer keeps, and that the owner keeps, holds after waiting. -/
theorem State.await_keeps {P : State → Prop} {s : State} {x : Xfer} {o : Owner}
    {fin : Bool → List Byte → State → State}
    (wait : P (s.hold x o))
    (go : ∀ r rest ok d, s.replies = r :: rest → P (fin ok d (s.answer x r rest ok))) : P (s.await x o fin) := by
  obtain ⟨-, h⟩ | ⟨r, rest, ok, hr, -, h⟩ := s.await_cases x o fin
  · exact h ▸ wait
  · exact h ▸ go r rest ok _ hr

/-- A transfer issued without a reply at hand is in flight. -/
theorem State.issue_noReply (x : Xfer) (o : Owner) (fin : Bool → List Byte → State → State) {s : State}
    (h : s.NoReply) :
    s.issue x o fin = (s.handOver x).hold x o :=
  State.await_noReply (s := s.handOver x) h x o fin

/-- A transfer issued with a reply at hand ends at once, and its owner goes on. -/
theorem State.issue_answered (x : Xfer) (o : Owner) (fin : Bool → List Byte → State → State) {s : State} {r : Reply}
    {rest : List Reply} {ok : Bool} (h : s.replies = r :: rest) (ho : r.outcome = if ok then .ok else .fail) :
    s.issue x o fin =
      fin ok (x.data ok ((s.handOver x).receive r rest))
        ((s.handOver x).answer x r rest ok) := by
  cases ok
  · exact State.await_fail (s := s.handOver x) h ho x o fin
  · exact State.await_ok (s := s.handOver x) h ho x o fin

/-- All that issuing a transfer can do. -/
theorem State.issue_cases (s : State) (x : Xfer) (o : Owner) (fin : Bool → List Byte → State → State) :
    (s.NoReply ∧
      s.issue x o fin = (s.handOver x).hold x o) ∨
    ∃ r rest ok, s.replies = r :: rest ∧ r.outcome = (if ok then .ok else .fail) ∧
      s.issue x o fin =
        fin ok (x.data ok ((s.handOver x).receive r rest))
          ((s.handOver x).answer x r rest ok) :=
  (s.handOver x).await_cases x o fin

/-! ### The clock device -/

theorem Params.inRam_iff (c : Params) (p : Nat) :
    Params.inRam c p = true ↔ c.ramBase.toNat ≤ p ∧ p ≤ c.ramBase.toNat + 55 := by simp [Params.inRam]

theorem Params.allInRam_iff (c : Params) (p n : Nat) :
    Params.allInRam c p n = true ↔ n = 0 ∨ c.ramBase.toNat ≤ p ∧ p + n ≤ c.ramBase.toNat + 56 := by
  simp only [Params.allInRam, Bool.or_eq_true, Bool.and_eq_true, decide_eq_true_eq]
  rfl

theorem Params.coversSs_iff (c : Params) (p n : Nat) :
    Params.coversSs c p n = true ↔ p ≤ c.ssReg.toNat ∧ c.ssReg.toNat < p + n := by simp [Params.coversSs]

theorem Params.inRam_ssReg {c : Params} (hc : c.Ok) : ¬ Params.inRam c c.ssReg.toNat = true := by
  rw [Params.inRam_iff]
  exact hc.2.2.2.1

/-- Bytes that fall on RAM pointers are a block write of the RAM (R45, R46). -/
theorem Params.storeRam_inRam (c : Params) :
    ∀ (bs : List Byte) (m : Memory) (j : Nat), j + bs.length ≤ 56 →
      Params.storeRam c m (c.ramBase.toNat + j) bs = m.writeBytes j bs
  | [], _, _, _ => rfl
  | b :: bs, m, j, h => by
    simp only [List.length_cons] at h
    rw [Params.storeRam, if_pos ((Params.inRam_iff c _).2 (by omega)), Nat.add_sub_cancel_left, Nat.add_assoc,
      Params.storeRam_inRam c bs _ (j + 1) (by omega)]
    rfl

/-- A RAM byte whose pointer is not addressed is kept (R31). -/
theorem Params.read_storeRam_outside (c : Params) {q : Nat} :
    ∀ (bs : List Byte) (m : Memory) (p : Nat), c.ramBase.toNat + q < p ∨ p + bs.length ≤ c.ramBase.toNat + q →
      (Params.storeRam c m p bs).read q = m.read q
  | [], _, _, _ => rfl
  | b :: bs, m, p, h => by
    simp only [List.length_cons] at h
    rw [Params.storeRam, Params.read_storeRam_outside c bs _ _ (by omega)]
    split
    · rename_i hin
      rw [Params.inRam_iff] at hin
      exact Memory.read_write_other (by omega) b m
    · rfl

/-- A write of the clock device keeps the RAM's canonical form. -/
theorem Params.storeRam_keeps (c : Params) :
    ∀ (bs : List Byte) {m : Memory} (p : Nat), Memory.wf Config.ramCap m = true →
      Memory.wf Config.ramCap (Params.storeRam c m p bs) = true
  | [], _, _, h => h
  | b :: bs, m, p, h => by
    rw [Params.storeRam]
    apply Params.storeRam_keeps c bs
    split
    · rename_i hin
      rw [Params.inRam_iff] at hin
      exact Memory.wf_write b h (by simp only [Config.ramCap]; omega)
    · exact h

/-- The RAM byte whose pointer is the `i`-th addressed takes byte `i` (R45, R46). -/
theorem Params.read_storeRam_inside (c : Params) {q : Nat} (hq : q < 56) :
    ∀ (bs : List Byte) {m : Memory} (p i : Nat), Memory.wf Config.ramCap m = true → p + i = c.ramBase.toNat + q →
      (h : i < bs.length) → (Params.storeRam c m p bs).read q = bs[i]
  | b :: bs, m, p, i, hm, hi, h => by
    rw [Params.storeRam]
    cases i with
    | zero =>
      rw [Params.read_storeRam_outside c bs _ _ (by omega), if_pos ((Params.inRam_iff c _).2 (by omega)),
        show p - c.ramBase.toNat = q by omega]
      exact Memory.read_write_same b hm
    | succ i =>
      simp only [List.length_cons] at h
      refine Params.read_storeRam_inside c hq bs (p + 1) i ?_ (by omega) (by omega)
      exact Params.storeRam_keeps c [b] p hm

/-- A write inside the RAM region stores its bytes there and changes nothing else of the device (R31, R45). -/
theorem ClockDevice.write_inRam (c : Params) (k : Nat) (bs : List Byte) (d : ClockDevice) (j : Nat)
    (h : j + bs.length ≤ 56) :
    ClockDevice.write c k d (c.ramBase.toNat + j) bs = { d with ram := d.ram.writeBytes j bs } := by
  rw [ClockDevice.write, Params.storeRam_inRam c bs _ j h, ClockDevice.countingAfter,
    if_pos ((Params.allInRam_iff c _ _).2 (by omega))]

/-- A failed write inside the RAM region leaves every byte it does not address alone (R96). -/
theorem ClockDevice.spoil_inRam {c : Params} (hc : c.Ok) (k n : Nat) (d : ClockDevice) (j : Nat) (h : j + n ≤ 56) :
    ClockDevice.spoil c k d (c.ramBase.toNat + j) n = { d with ram := d.ram.writeBytes j (freeBytes k n) } := by
  have := hc.2.2.2.1
  rw [ClockDevice.spoil, Params.storeRam_inRam c _ _ j (by simpa using h), if_neg]
  rw [Params.coversSs_iff]
  omega

/-- A write that stores 0x00 at SS_REG starts the counter, whatever its other bytes are (R32, D20). -/
theorem ClockDevice.countingAfter_start (d : ClockDevice) {c : Params} (hc : c.Ok) (k : Nat) {p : Nat} {bs : List Byte}
    (hp : p ≤ c.ssReg.toNat) (hb : bs[c.ssReg.toNat - p]? = some 0) : d.countingAfter c k p bs = true := by
  have hl := (List.getElem?_eq_some_iff.1 hb).1
  rw [ClockDevice.countingAfter, if_neg, if_pos ⟨hp, hb⟩]
  rw [Params.allInRam_iff]
  have := hc.2.2.2.1
  omega

/-- A read inside the RAM region gives the RAM's bytes (R44). -/
theorem ClockDevice.read_inRam (d : ClockDevice) (c : Params) (k j n : Nat) (h : j + n ≤ 56) :
    d.read c k (c.ramBase.toNat + j) n = d.ram.readBytes j n := by
  apply List.ext_getElem (by simp [ClockDevice.read])
  intro i hi hi'
  have hin : Params.inRam c (c.ramBase.toNat + j + i) = true :=
    (Params.inRam_iff c _).2 (by simp [ClockDevice.read] at hi; omega)
  simp only [ClockDevice.read, Memory.readBytes, List.getElem_map, List.getElem_range, ClockDevice.byteAt, if_pos hin]
  congr 1
  omega

/-- The two bytes from the start/stop register up are SEC and MIN (R44). -/
theorem ClockDevice.read_time (d : ClockDevice) {c : Params} (hc : c.Ok) (k : Nat) :
    d.read c k c.ssReg.toNat 2 = [d.sec, d.min] := by
  obtain ⟨-, -, -, h1, h2, -⟩ := hc
  rw [← Params.inRam_iff] at h1 h2
  simp [ClockDevice.read, ClockDevice.byteAt, List.range_succ, h1, h2]

/-- 0x00 at the start/stop register starts the counter and changes nothing else of the device (R45). -/
theorem ClockDevice.write_start (d : ClockDevice) {c : Params} (hc : c.Ok) (k : Nat) :
    ClockDevice.write c k d c.ssReg.toNat [0] = { d with counting := true } := by
  rw [ClockDevice.write, ClockDevice.countingAfter_start d hc k (Nat.le_refl _) (by simp), Params.storeRam,
    if_neg (Params.inRam_ssReg hc), Params.storeRam]

/-- A failed one-byte write of the start/stop register leaves COUNTING open and changes nothing else of the device (R96). -/
theorem ClockDevice.spoil_start (d : ClockDevice) {c : Params} (hc : c.Ok) (k : Nat) :
    ClockDevice.spoil c k d c.ssReg.toNat 1 = { d with counting := Config.freeFlag k } := by
  rw [ClockDevice.spoil, if_pos ((Params.coversSs_iff c _ _).2 (by omega)), show freeBytes k 1 = [Config.freeByte k 0] from rfl, Params.storeRam,
    if_neg (Params.inRam_ssReg hc), Params.storeRam]

/-- A byte of a read of the clock device (R44, R46). -/
theorem ClockDevice.read_getElem? (d : ClockDevice) (c : Params) (k p n i : Nat) (h : i < n) :
    (d.read c k p n)[i]? = some (d.byteAt c k (p + i)) := by
  simp [ClockDevice.read, h]

@[simp] theorem ClockDevice.allFree_ram (d : ClockDevice) (k : Nat) :
    (d.allFree k).ram = Memory.allFree Config.ramCap k := by
  unfold ClockDevice.allFree
  rfl

/-! ### The NVM device -/

theorem Params.safeWrite_iff (c : Params) (a n : Nat) :
    Params.safeWrite c a n = true ↔ a + n ≤ Config.nvmCap ∧ a / c.pageSize = (a + n - 1) / c.pageSize := by
  unfold Params.safeWrite
  rw [Bool.and_eq_true, decide_eq_true_eq, decide_eq_true_eq]

theorem nvmWrite_keeps (c : Params) {nvm : Memory} (k a n : Nat) (ok : Bool) {bs : List Byte}
    (h : Memory.wf Config.nvmCap nvm = true) (hb : bs.length ≤ n) : Memory.wf Config.nvmCap (nvmWrite c nvm k a n ok bs) = true := by
  unfold nvmWrite
  split
  · exact h
  · split
    · rename_i hs
      have := (Params.safeWrite_iff c a n).1 hs
      refine Memory.wf_writeBytes _ h ?_
      cases ok
      · simpa using this.1
      · simp only [if_true]
        omega
    · exact Memory.wf_allFree Config.nvmCap k

/-! ### A transfer -/

theorem Xfer.bytes_length_le (x : Xfer) : x.bytes.length ≤ x.len.toNat := by
  simp [Xfer.bytes]

/-- The bytes of a well-formed write are its payload. -/
theorem Xfer.bytes_eq {x : Xfer} (h : x.payload.length = x.len.toNat) : x.bytes = x.payload := by
  simp [Xfer.bytes, ← h]

theorem Xfer.clockAfter_keeps (x : Xfer) (ok : Bool) {s : State} (h : Memory.wf Config.ramCap s.clock.ram = true) :
    Memory.wf Config.ramCap (x.clockAfter ok s).ram = true := by
  unfold Xfer.clockAfter
  split
  · exact h
  · split
    · rw [ClockDevice.allFree_ram]
      exact Memory.wf_allFree _ _
    · split
      · exact Params.storeRam_keeps _ _ _ h
      · exact Params.storeRam_keeps _ _ _ h

/-- No write transfer changes SEC or MIN. -/
theorem Xfer.clockAfter_time (x : Xfer) (ok : Bool) (s : State) :
    (x.clockAfter ok s).sec = s.clock.sec ∧ (x.clockAfter ok s).min = s.clock.min := by
  unfold Xfer.clockAfter
  split
  · exact ⟨rfl, rfl⟩
  · split
    · unfold ClockDevice.allFree
      exact ⟨rfl, rfl⟩
    · split
      · exact ⟨rfl, rfl⟩
      · exact ⟨rfl, rfl⟩

theorem Xfer.nvmAfter_keeps (x : Xfer) (ok : Bool) {s : State} (h : Memory.wf Config.nvmCap s.nvm = true) :
    Memory.wf Config.nvmCap (x.nvmAfter ok s) = true := by
  unfold Xfer.nvmAfter
  split
  · exact h
  · split
    · exact Memory.wf_allFree Config.nvmCap _
    · exact nvmWrite_keeps _ _ _ _ _ h x.bytes_length_le

/-- A transfer keeps the canonical form of both memories. -/
theorem Xfer.effect_keeps (x : Xfer) (ok : Bool) {s : State} (h : Memory.wf Config.ramCap s.clock.ram = true)
    (h' : Memory.wf Config.nvmCap s.nvm = true) :
    Memory.wf Config.ramCap (x.effect ok s).clock.ram = true ∧ Memory.wf Config.nvmCap (x.effect ok s).nvm = true := by
  unfold Xfer.effect Xfer.store
  split
  · exact ⟨h, h'⟩
  · split
    · exact ⟨x.clockAfter_keeps ok h, h'⟩
    · split
      · exact ⟨h, x.nvmAfter_keeps ok h'⟩
      · exact ⟨h, h'⟩

/-- A read changes nothing of the peripherals, whatever its outcome (R97, R99). -/
theorem Xfer.effect_read {x : Xfer} (h : x.rnw = true) (ok : Bool) (s : State) : x.effect ok s = s := by
  simp [Xfer.effect, h]

/-- A completed transfer as one update of the state. -/
theorem State.answer_eq (x : Xfer) (r : Reply) (rest : List Reply) (ok : Bool) (s : State) :
    s.answer x r rest ok =
      { s with
        replies := rest, inFlight := none, draws := s.draws + 1
        clock := (x.effect ok (s.receive r rest)).clock
        nvm := (x.effect ok (s.receive r rest)).nvm
        returned := s.returned ++ [{ ok := ok, data := x.data ok (s.receive r rest) }] } := by
  unfold State.answer Xfer.effect Xfer.store
  split <;> try split
  all_goals try split
  all_goals rfl

/-- A completed read as one update of the state. -/
theorem State.answer_read {x : Xfer} (hx : x.rnw = true) (r : Reply) (rest : List Reply) (ok : Bool) (s : State) :
    s.answer x r rest ok =
      { s.receive r rest with returned := s.returned ++ [{ ok := ok, data := x.data ok (s.receive r rest) }] } := by
  simp [State.answer, Xfer.effect_read hx]

/-- A transfer that fails hands back no byte (R102). -/
@[simp] theorem Xfer.data_fail (x : Xfer) (s : State) : x.data false s = [] := by simp [Xfer.data]

/-- A write hands back no byte (R95). -/
theorem Xfer.data_write {x : Xfer} (h : x.rnw = false) (ok : Bool) (s : State) : x.data ok s = [] := by
  simp [Xfer.data, h]

/-! ### The address decoder -/

@[simp] theorem zext16_toNat (c : Pointer8) : (zext16 c).toNat = c.toNat := by
  have := c.isLt
  simp only [zext16, BitVec.toNat_setWidth]
  omega

theorem Xfer.fetch_clock {x : Xfer} {s : State} (hw : x.w16 = false) (hd : x.dev = s.params.clkDev) :
    x.fetch s = s.clock.read s.params s.draws x.reg.toNat x.len.toNat := by simp [Xfer.fetch, hw, hd]

theorem Xfer.fetch_nvm {x : Xfer} {s : State} (hw : x.w16 = true) (hd : x.dev = s.params.nvmDev) :
    x.fetch s = nvmRead s.nvm s.draws x.reg.toNat x.len.toNat := by simp [Xfer.fetch, hw, hd]

theorem Xfer.effect_toClock {x : Xfer} {s : State} (hr : x.rnw = false) (hd : x.dev = s.params.clkDev) (ok : Bool) :
    x.effect ok s = { s with clock := x.clockAfter ok s } := by simp [Xfer.effect, Xfer.store, hr, hd]

theorem Xfer.effect_toNvm {x : Xfer} {s : State} (hc : s.params.Ok) (hr : x.rnw = false) (hd : x.dev = s.params.nvmDev)
    (ok : Bool) : x.effect ok s = { s with nvm := x.nvmAfter ok s } := by
  have : s.params.nvmDev ≠ s.params.clkDev := Ne.symm hc.1
  simp [Xfer.effect, Xfer.store, hr, hd, this]

theorem Xfer.clockAfter_zero {x : Xfer} (h0 : x.len.toNat = 0) (ok : Bool) (s : State) :
    x.clockAfter ok s = s.clock := by
  simp [Xfer.clockAfter, h0]

/-- A write of `LEN` bytes to the clock device inside its RAM region, that succeeds: the payload is stored there (R96). -/
theorem Xfer.clockAfter_inRam_ok {x : Xfer} {s : State} {j : Nat} (hw : x.w16 = false)
    (hr : x.reg.toNat = s.params.ramBase.toNat + j) (hp : x.payload.length = x.len.toNat)
    (hj : j + x.len.toNat ≤ 56) : x.clockAfter true s = { s.clock with ram := s.clock.ram.writeBytes j x.payload } := by
  unfold Xfer.clockAfter
  by_cases h0 : x.len.toNat = 0
  · rw [if_pos h0, List.eq_nil_of_length_eq_zero (hp.trans h0)]
    rfl
  · rw [if_neg h0, if_neg (by simp [hw]), if_pos rfl, Xfer.bytes_eq hp, hr,
      ClockDevice.write_inRam _ _ _ _ _ (by omega)]

/-- A write of `LEN` bytes to the clock device inside its RAM region, that fails: some bytes stand there (R96). -/
theorem Xfer.clockAfter_inRam_fail {x : Xfer} {s : State} {j : Nat} (hc : s.params.Ok) (hw : x.w16 = false)
    (hr : x.reg.toNat = s.params.ramBase.toNat + j) (hj : j + x.len.toNat ≤ 56) :
    ∃ bs, bs.length = x.len.toNat ∧ x.clockAfter false s = { s.clock with ram := s.clock.ram.writeBytes j bs } := by
  unfold Xfer.clockAfter
  by_cases h0 : x.len.toNat = 0
  · exact ⟨[], h0.symm, by rw [if_pos h0]; rfl⟩
  · exact ⟨freeBytes s.draws x.len.toNat, freeBytes_length _ _, by
      rw [if_neg h0, if_neg (by simp [hw]), if_neg (by simp), hr, ClockDevice.spoil_inRam hc _ _ _ _ hj]⟩

/-- A write of `LEN` bytes to the clock device, byte by byte: what stands in a RAM byte whose pointer is addressed, that every
other RAM byte is kept, and what COUNTING becomes (R31, R32, R45, R96). -/
theorem Xfer.clockAfter_bytes {x : Xfer} {s : State} (hc : s.params.Ok) (hm : Memory.wf Config.ramCap s.clock.ram = true)
    (hw : x.w16 = false) (ok : Bool) :
    (∀ p, s.params.ramBase.toNat + p < x.reg.toNat ∨ x.reg.toNat + x.len.toNat ≤ s.params.ramBase.toNat + p →
      (x.clockAfter ok s).ram.read p = s.clock.ram.read p) ∧
    (ok = true → x.payload.length = x.len.toNat → ∀ p i, p < 56 → i < x.len.toNat →
      x.reg.toNat + i = s.params.ramBase.toNat + p → x.payload[i]? = some ((x.clockAfter ok s).ram.read p)) ∧
    (x.len.toNat = 0 ∨ s.params.ramBase.toNat ≤ x.reg.toNat ∧
        x.reg.toNat + x.len.toNat ≤ s.params.ramBase.toNat + 56 →
      (x.clockAfter ok s).counting = s.clock.counting) ∧
    (ok = false → s.params.ssReg.toNat < x.reg.toNat ∨ x.reg.toNat + x.len.toNat ≤ s.params.ssReg.toNat →
      (x.clockAfter ok s).counting = s.clock.counting) ∧
    (ok = true → x.payload.length = x.len.toNat → x.reg.toNat ≤ s.params.ssReg.toNat →
      x.payload[s.params.ssReg.toNat - x.reg.toNat]? = some 0 → (x.clockAfter ok s).counting = true) := by
  by_cases h0 : x.len.toNat = 0
  · rw [Xfer.clockAfter_zero h0]
    refine ⟨fun _ _ => rfl, fun _ _ p i _ hi => by omega, fun _ => rfl, fun _ _ => rfl, fun _ hp _ hb => ?_⟩
    have := (List.getElem?_eq_some_iff.1 hb).1
    omega
  · have hbl := x.bytes_length_le
    have hss := hc.2.2.2.1
    have kept : s.params.ssReg.toNat < x.reg.toNat ∨ x.reg.toNat + x.len.toNat ≤ s.params.ssReg.toNat →
        ¬ Params.coversSs s.params x.reg.toNat x.len.toNat = true := by
      rw [Params.coversSs_iff]
      omega
    unfold Xfer.clockAfter
    rw [if_neg h0, if_neg (by simp [hw])]
    cases ok
    · refine ⟨fun p h => ?_, fun h => by simp at h, fun h => ?_, fun _ h => if_neg (kept h), fun h => by simp at h⟩
      · exact Params.read_storeRam_outside _ _ _ _ (by simpa using h)
      · exact if_neg (kept (by omega))
    · simp only [if_true]
      refine ⟨fun p h => ?_, fun _ hp p i h56 hi he => ?_, fun h => ?_, fun h => by simp at h, fun _ hp hs hb => ?_⟩
      · exact Params.read_storeRam_outside _ _ _ _ (by omega)
      · rw [Xfer.bytes_eq hp, ClockDevice.write, Params.read_storeRam_inside _ h56 _ _ i hm he (by omega)]
        exact List.getElem?_eq_getElem _
      · exact if_pos ((Params.allInRam_iff _ _ _).2 (by omega))
      · rw [Xfer.bytes_eq hp]
        exact ClockDevice.countingAfter_start _ hc _ hs hb

/-- A safe write of `LEN ≥ 1` bytes to the NVM device (R98, R133). -/
theorem Xfer.nvmAfter_safe {x : Xfer} {s : State} (hw : x.w16 = true) (h0 : 0 < x.len.toNat)
    (hs : Params.safeWrite s.params x.reg.toNat x.len.toNat = true) (ok : Bool) :
    x.nvmAfter ok s =
      s.nvm.writeBytes x.reg.toNat (if ok then x.bytes else freeBytes s.draws x.len.toNat) := by
  unfold Xfer.nvmAfter nvmWrite
  rw [if_neg (by omega), if_neg (by simp [hw]), if_neg (by omega), if_pos hs]

theorem Xfer.nvmAfter_zero {x : Xfer} (h0 : x.len.toNat = 0) (ok : Bool) (s : State) : x.nvmAfter ok s = s.nvm := by
  simp [Xfer.nvmAfter, h0]

/-! ### The skeleton of the buffer commands -/

/-- A length that does not pass is rejected, and nothing but the response is new (R94, R141). -/
theorem State.accept_buffer_over {s : State} (hr : s.ready = true) {cap : Nat} {len : Length} (x : State → Xfer)
    (h : cap ≤ len.toNat) :
    s.accept (fun s => s.buffer cap len (x s)) =
      .next { s with responses := s.responses ++ [{ status := .boundsErr, data := [] }] } := by
  have hb := ((State.ready_iff s).1 hr).1
  rw [State.accept_ready hr, State.buffer, boundsOk, decide_eq_false (by omega)]
  congr 1
  apply State.ext <;> simp [hb]

/-- A length that passes is followed by exactly one transfer (R94). -/
theorem State.accept_buffer_within {s : State} (hr : s.ready = true) {cap : Nat} {len : Length} (x : State → Xfer)
    (h : len.toNat < cap) :
    s.accept (fun s => s.buffer cap len (x s)) = .next (s.occupy.issue (x s.occupy) .buffer finishBuffer) := by
  rw [State.accept_ready hr, State.buffer, boundsOk, decide_eq_true h, if_pos rfl]

/-- Without a reply a buffer command waits (R94, R155). -/
theorem State.occupy_issue_noReply {s : State} (hn : s.NoReply) (x : Xfer) (o : Owner)
    (fin : Bool → List Byte → State → State) :
    s.occupy.issue x o fin =
      { s with busy := true, inFlight := some { xfer := x, owner := o }, issued := s.issued ++ [x] } := by
  rw [State.issue_noReply x o fin (s := s.occupy) hn]
  rfl

/-- The state in which the answer to a transfer issued by a command takes effect. -/
def State.atAnswer (x : Xfer) (r : Reply) (rest : List Reply) (s : State) : State :=
  (s.occupy.handOver x).receive r rest

@[simp] theorem State.atAnswer_params (x : Xfer) (r : Reply) (rest : List Reply) (s : State) :
    (s.atAnswer x r rest).params = s.params := rfl

@[simp] theorem State.atAnswer_clock (x : Xfer) (r : Reply) (rest : List Reply) (s : State) :
    (s.atAnswer x r rest).clock = { s.clock with sec := r.sec, min := r.min } := rfl

@[simp] theorem State.atAnswer_nvm (x : Xfer) (r : Reply) (rest : List Reply) (s : State) :
    (s.atAnswer x r rest).nvm = s.nvm := rfl

@[simp] theorem State.atAnswer_draws (x : Xfer) (r : Reply) (rest : List Reply) (s : State) :
    (s.atAnswer x r rest).draws = s.draws + 1 := rfl

/-- With a reply at hand a buffer command ends: the effect and the data of its transfer, and one response (R94). -/
theorem State.buffer_answered {s : State} (hr : s.ready = true) {r : Reply} {rest : List Reply} {ok : Bool} (x : Xfer)
    (h : s.replies = r :: rest) (ho : r.outcome = if ok then .ok else .fail) :
    s.occupy.issue x .buffer finishBuffer =
      { s with
        clock := (x.effect ok (s.atAnswer x r rest)).clock
        nvm := (x.effect ok (s.atAnswer x r rest)).nvm
        replies := rest, draws := s.draws + 1
        issued := s.issued ++ [x]
        returned := s.returned ++ [{ ok := ok, data := x.data ok (s.atAnswer x r rest) }]
        responses := s.responses ++
          [{ status := if ok then .ok else .transportErr, data := x.data ok (s.atAnswer x r rest) }] } := by
  obtain ⟨hb, hf⟩ := (State.ready_iff s).1 hr
  rw [State.issue_answered x .buffer finishBuffer (s := s.occupy) h ho, State.answer_eq]
  cases ok <;> apply State.ext <;> simp [finishBuffer, State.atAnswer, hb, hf]

/-- With a reply at hand a transfer run by itself ends: its effect and its answer (R95). -/
theorem State.bare_answered {s : State} (hf : s.inFlight = none) {r : Reply} {rest : List Reply} {ok : Bool} (x : Xfer)
    (h : s.replies = r :: rest) (ho : r.outcome = if ok then .ok else .fail) :
    s.bare x = .next
      { s with
        clock := (x.effect ok ((s.handOver x).receive r rest)).clock
        nvm := (x.effect ok ((s.handOver x).receive r rest)).nvm
        replies := rest, draws := s.draws + 1
        issued := s.issued ++ [x]
        returned := s.returned ++ [{ ok := ok, data := x.data ok ((s.handOver x).receive r rest) }] } := by
  rw [State.bare, if_pos (by simp [hf]), State.issue_answered x .bare finishBare h ho, State.answer_eq]
  congr 1
  apply State.ext <;> simp [finishBare, hf]

/-- Without a reply a transfer run by itself stays in flight (R36). -/
theorem State.bare_noReply {s : State} (hf : s.inFlight = none) (x : Xfer) (hn : s.NoReply) :
    s.bare x = .next { s with inFlight := some { xfer := x, owner := .bare }, issued := s.issued ++ [x] } := by
  rw [State.bare, if_pos (by simp [hf]), State.issue_noReply x .bare finishBare hn]
  rfl

end Sys2Proof.Machine
end

