-- ==== Sys2Proof/Laws/PerInstr.lean ====
section
/-! SUPPORT. What holds of every instruction as syntax, one lemma per constructor: the length of its encoding (R72, R79,
R82). -/

namespace Sys2Proof.Laws.EncodeLength

/-- A command is 5 bytes, `5 + L` with its payload (R82); a descriptor is 6 bytes, and its payload follows. -/
def Statement (i : Instr) : Prop :=
  i.encode.length =
    match i with
    | .clkInit => 5
    | .ramGet _ => 5
    | .ramSet _ payload => 5 + payload.length
    | .getTime => 5
    | .nvmGet _ _ => 5
    | .nvmSet _ _ payload => 5 + payload.length
    | .xferW8 _ _ _ payload => 6 + payload.length
    | .xferR8 _ _ _ => 6
    | .xferW16 _ _ _ payload => 6 + payload.length
    | .xferR16 _ _ _ => 6

theorem commandBytes_length (opc : Byte) (off : Pointer16) (len : Length) : (commandBytes opc off len).length = 5 := rfl

theorem descriptorBytes_length (w : Bool) (dev : DeviceId) (r : Bool) (reg : Pointer16) (len : Length) :
    (descriptorBytes w dev r reg len).length = 6 := rfl

theorem clkInit : Statement .clkInit := rfl

theorem ramGet (len : Length) : Statement (.ramGet len) := rfl

theorem ramSet (len : Length) (payload : List Byte) : Statement (.ramSet len payload) := by
  simp [Statement, Instr.encode, commandBytes_length]

theorem getTime : Statement .getTime := rfl

theorem nvmGet (off : Pointer16) (len : Length) : Statement (.nvmGet off len) := rfl

theorem nvmSet (off : Pointer16) (len : Length) (payload : List Byte) : Statement (.nvmSet off len payload) := by
  simp [Statement, Instr.encode, commandBytes_length]

theorem xferW8 (dev : DeviceId) (reg : Pointer8) (len : Length) (payload : List Byte) :
    Statement (.xferW8 dev reg len payload) := by
  simp [Statement, Instr.encode, descriptorBytes_length]

theorem xferR8 (dev : DeviceId) (reg : Pointer8) (len : Length) : Statement (.xferR8 dev reg len) := rfl

theorem xferW16 (dev : DeviceId) (reg : Pointer16) (len : Length) (payload : List Byte) :
    Statement (.xferW16 dev reg len payload) := by
  simp [Statement, Instr.encode, descriptorBytes_length]

theorem xferR16 (dev : DeviceId) (reg : Pointer16) (len : Length) : Statement (.xferR16 dev reg len) := rfl

end Sys2Proof.Laws.EncodeLength
end

