-- ==== Sys2Proof/Laws/Step.lean ====
section
/-! SUPPORT. All that a meaning and a step can do, said once: each lemma lists the cases, with the next state as one update. -/

namespace Sys2Proof.Machine

/-- All that a buffer command the block accepts can do (R94). -/
theorem State.accept_buffer_cases {s t : State} (hr : s.ready = true) {cap : Nat} {len : Length} (x : State → Xfer)
    (h : s.accept (fun s => s.buffer cap len (x s)) = .next t) :
    (cap ≤ len.toNat ∧ t = { s with responses := s.responses ++ [{ status := .boundsErr, data := [] }] }) ∨
    (len.toNat < cap ∧ s.NoReply ∧
      t = { s with
        busy := true
        inFlight := some { xfer := x s.occupy, owner := .buffer }
        issued := s.issued ++ [x s.occupy] }) ∨
    (len.toNat < cap ∧ ∃ r rest ok, s.replies = r :: rest ∧ r.outcome = (if ok then .ok else .fail) ∧
      t = { s with
        clock := ((x s.occupy).effect ok (s.atAnswer (x s.occupy) r rest)).clock
        nvm := ((x s.occupy).effect ok (s.atAnswer (x s.occupy) r rest)).nvm
        replies := rest, draws := s.draws + 1
        issued := s.issued ++ [x s.occupy]
        returned := s.returned ++ [{ ok := ok, data := (x s.occupy).data ok (s.atAnswer (x s.occupy) r rest) }]
        responses := s.responses ++
          [{ status := if ok then .ok else .transportErr
             data := (x s.occupy).data ok (s.atAnswer (x s.occupy) r rest) }] }) := by
  by_cases hl : len.toNat < cap
  · rw [State.accept_buffer_within hr x hl] at h
    cases h
    obtain ⟨hn, -⟩ | ⟨r, rest, ok, h1, h2, -⟩ := State.issue_cases s (x s.occupy) .buffer finishBuffer
    · exact .inr (.inl ⟨hl, hn, State.occupy_issue_noReply hn _ _ _⟩)
    · exact .inr (.inr ⟨hl, r, rest, ok, h1, h2, State.buffer_answered hr _ h1 h2⟩)
  · rw [State.accept_buffer_over hr x (by omega)] at h
    cases h
    exact .inl ⟨by omega, rfl⟩

/-- All that a GET_TIME the block accepts can do (R113). -/
theorem execGetTime_cases {s t : State} (hr : s.ready = true) (h : execGetTime s = .next t) :
    (s.NoReply ∧
      t = { s with
        busy := true
        inFlight := some { xfer := getTimeXfer s.params, owner := .getTime }
        issued := s.issued ++ [getTimeXfer s.params] }) ∨
    (∃ r rest d, s.replies = r :: rest ∧ r.outcome = .ok ∧
      d = (getTimeXfer s.params).data true (s.atAnswer (getTimeXfer s.params) r rest) ∧
      t = { s with
        time := TimeReg.ofBytes (d.getD 0 0) (d.getD 1 0), tvalid := true
        clock := { s.clock with sec := r.sec, min := r.min }
        replies := rest, draws := s.draws + 1
        issued := s.issued ++ [getTimeXfer s.params]
        returned := s.returned ++ [{ ok := true, data := d }]
        responses := s.responses ++ [{ status := .ok, data := [] }] }) ∨
    (∃ r rest, s.replies = r :: rest ∧ r.outcome = .fail ∧
      t = { s with
        tvalid := false
        clock := { s.clock with sec := r.sec, min := r.min }
        replies := rest, draws := s.draws + 1
        issued := s.issued ++ [getTimeXfer s.params]
        returned := s.returned ++ [{ ok := false, data := [] }]
        responses := s.responses ++ [{ status := .transportErr, data := [] }] }) := by
  obtain ⟨hb, hf⟩ := (State.ready_iff s).1 hr
  rw [execGetTime, State.accept_ready hr] at h
  cases h
  obtain ⟨hn, -⟩ | ⟨r, rest, ok, h1, h2, -⟩ := State.issue_cases s (getTimeXfer s.params) .getTime finishGetTime
  · exact .inl ⟨hn, State.occupy_issue_noReply hn _ _ _⟩
  · right
    rw [State.issue_answered (ok := ok) (r := r) (rest := rest) _ _ _ (by exact h1) h2, State.answer_read rfl]
    cases ok
    · refine .inr ⟨r, rest, h1, h2, ?_⟩
      apply State.ext <;> simp [finishGetTime, hb, hf]
    · refine .inl ⟨r, rest, _, h1, h2, rfl, ?_⟩
      apply State.ext <;> simp [finishGetTime, State.atAnswer, hb, hf]

/-- All that a CLK_INIT the block accepts can do (R110), but for what it leaves in the clock device. -/
theorem execClkInit_cases {s t : State} (hr : s.ready = true) (h : execClkInit s = .next t) :
    (s.NoReply ∧
      t = { s with
        busy := true
        inFlight := some { xfer := clkInitRamXfer s.params, owner := .clkInitRam }
        issued := s.issued ++ [clkInitRamXfer s.params] }) ∨
    (∃ c n rs, s.params.initStopOnFail = true ∧
      t = { s with
        clock := c, replies := rs, draws := n
        issued := s.issued ++ [clkInitRamXfer s.params]
        returned := s.returned ++ [{ ok := false, data := [] }]
        responses := s.responses ++ [{ status := .transportErr, data := [] }] }) ∨
    (∃ c n rs ok,
      t = { s with
        busy := true, inFlight := some { xfer := clkInitStartXfer s.params, owner := .clkInitStart ok }
        clock := c, replies := rs, draws := n
        issued := s.issued ++ [clkInitRamXfer s.params, clkInitStartXfer s.params]
        returned := s.returned ++ [{ ok := ok, data := [] }] }) ∨
    (∃ c n rs ok ok',
      t = { s with
        clock := c, replies := rs, draws := n
        issued := s.issued ++ [clkInitRamXfer s.params, clkInitStartXfer s.params]
        returned := s.returned ++ [{ ok := ok, data := [] }, { ok := ok', data := [] }]
        responses := s.responses ++
          [{ status := if ok && ok' then .ok else .transportErr, data := [] }] }) := by
  obtain ⟨hb, hf⟩ := (State.ready_iff s).1 hr
  rw [execClkInit, State.accept_ready hr] at h
  cases h
  obtain ⟨hn, -⟩ | ⟨r, rest, ok, h1, h2, -⟩ :=
    State.issue_cases s (clkInitRamXfer s.params) .clkInitRam finishClkInitRam
  · exact .inl ⟨hn, State.occupy_issue_noReply hn _ _ _⟩
  · right
    rw [State.issue_answered (ok := ok) (r := r) (rest := rest) _ _ _ (by exact h1) h2, State.answer_eq,
      Xfer.effect_toClock rfl rfl, Xfer.data_write rfl]
    generalize (clkInitRamXfer s.occupy.params).clockAfter ok _ = c
    simp only [finishClkInitRam]
    split
    · refine .inl ⟨c, s.draws + 1, rest, ?_, ?_⟩
      · simp_all
      · apply State.ext
        all_goals first | rfl | simp_all
    · right
      obtain ⟨hn, -⟩ | ⟨r', rest', ok', h1', h2', -⟩ :=
        State.issue_cases { s with replies := rest } (clkInitStartXfer s.params) (.clkInitStart ok)
          (finishClkInitStart ok)
      · rw [State.issue_noReply _ _ _ (by exact hn)]
        refine .inl ⟨c, s.draws + 1, rest, ok, ?_⟩
        apply State.ext
        all_goals first | rfl | simp
      · rw [State.issue_answered (ok := ok') (r := r') (rest := rest') _ _ _ (by exact h1') h2', State.answer_eq,
          Xfer.effect_toClock rfl rfl, Xfer.data_write rfl]
        generalize Xfer.clockAfter (clkInitStartXfer _) ok' _ = c'
        simp only [finishClkInitStart]
        refine .inr ⟨c', s.draws + 2, rest', ok, ok', ?_⟩
        cases ok <;> cases ok' <;> (apply State.ext; all_goals first | rfl | simp [hb, hf])

/-- All that a transfer run by itself can do (R95, R104). -/
theorem State.bare_cases {s t : State} (x : Xfer) (h : s.bare x = .next t) :
    (s.inFlight ≠ none ∧ t = s) ∨
    (s.inFlight = none ∧ s.NoReply ∧
      t = { s with inFlight := some { xfer := x, owner := .bare }, issued := s.issued ++ [x] }) ∨
    (s.inFlight = none ∧ ∃ r rest ok, s.replies = r :: rest ∧ r.outcome = (if ok then .ok else .fail) ∧
      t = { s with
        clock := (x.effect ok ((s.handOver x).receive r rest)).clock
        nvm := (x.effect ok ((s.handOver x).receive r rest)).nvm
        replies := rest, draws := s.draws + 1
        issued := s.issued ++ [x]
        returned := s.returned ++ [{ ok := ok, data := x.data ok ((s.handOver x).receive r rest) }] }) := by
  by_cases hf : s.inFlight = none
  · obtain ⟨hn, -⟩ | ⟨r, rest, ok, h1, h2, -⟩ := State.issue_cases s x .bare finishBare
    · rw [State.bare_noReply hf _ hn] at h
      cases h
      exact .inr (.inl ⟨hf, hn, rfl⟩)
    · rw [State.bare_answered hf x h1 h2] at h
      cases h
      exact .inr (.inr ⟨hf, r, rest, ok, h1, h2, rfl⟩)
  · unfold State.bare at h
    rw [if_neg (by simpa [Option.isNone_iff_eq_none] using hf)] at h
    cases h
    exact .inl ⟨hf, rfl⟩

/-! ### The step -/

theorem step_resume {s : State} {fl : InFlight} (hp : s.powerOn = false) (hf : s.inFlight = some fl) :
    step s = .next (s.resume fl) := by
  simp [step, hp, hf]

theorem step_fetched {s s' : State} {i : Instr} (h : s.Idle) (hf : s.fetch = some (.ok (i, s'))) :
    step s = exec i s' := by
  obtain ⟨h1, h2, h3⟩ := h
  simp [step, h1, h2, h3, hf]

theorem step_reserved {s : State} {e : DecodeError} (h : s.Idle) (hf : s.fetch = some (.error e)) :
    step s = .refused (.invalidWord e) := by
  obtain ⟨h1, h2, h3⟩ := h
  simp [step, h1, h2, h3, hf]

theorem step_nothing {s : State} (h : s.Idle) (hf : s.fetch = none) : step s = .next s.sequencerTurn := by
  obtain ⟨h1, h2, h3⟩ := h
  simp [step, h1, h2, h3, hf]

/-- All that a step to a next state can be. -/
theorem step_cases {s t : State} (h : step s = .next t) :
    (s.powerOn = true ∧ t = s.powerOnReset) ∨
    (s.powerOn = false ∧ ∃ fl, s.inFlight = some fl ∧ t = s.resume fl) ∨
    (s.powerOn = false ∧ s.inFlight = none ∧ s.busy = true ∧ t = s) ∨
    (s.powerOn = false ∧ s.inFlight = none ∧ s.busy = false ∧
      ∃ i c d, exec i { s with commands := c, descriptors := d } = .next t) ∨
    (s.powerOn = false ∧ s.inFlight = none ∧ s.busy = false ∧ t = s.sequencerTurn) := by
  unfold step at h
  split at h
  · cases h
    exact .inl ⟨‹_›, rfl⟩
  · rename_i hp
    simp only [Bool.not_eq_true] at hp
    right
    split at h
    · cases h
      exact .inl ⟨hp, _, ‹_›, rfl⟩
    · right
      split at h
      · cases h
        exact .inl ⟨hp, ‹_›, ‹_›, rfl⟩
      · rename_i hf hb
        simp only [Bool.not_eq_true] at hb
        right
        split at h
        · rename_i i s' hfe
          refine .inl ⟨hp, hf, hb, i, s'.commands, s'.descriptors, ?_⟩
          rw [← h]
          congr 1
          unfold State.fetch at hfe
          split at hfe
          · cases hfe
          · split at hfe <;> cases hfe
            apply State.ext <;> simp
          · split at hfe <;> cases hfe
            apply State.ext <;> simp
        · cases h
        · cases h
          exact .inr ⟨hp, hf, hb, rfl⟩

end Sys2Proof.Machine
end

