-- ==== Sys2Proof/Tests/Slice0.lean ====
section
/-! SUPPORT. Tests: the ill-formed terms `wellFormed` refuses, words of spec/95_test_vectors.md through the decoder, single
commands whose results are that file's, and for every statement with hypotheses a state and operands that meet them. -/

namespace Sys2Proof.Tests

open Sys2Proof Sys2Proof.Machine

/-! ### Well-formedness: one ill-formed term per check -/

theorem test_ramSet_illFormed : Instr.wellFormed (.ramSet 3 [0x41, 0x42]) = false := by decide
theorem test_nvmSet_illFormed : Instr.wellFormed (.nvmSet 64 2 [0xAA, 0xBB, 0xCC]) = false := by decide
theorem test_xferW8_illFormed : Instr.wellFormed (.xferW8 0x68 8 1 []) = false := by decide
theorem test_xferW16_illFormed : Instr.wellFormed (.xferW16 0x50 0 0 [0x00]) = false := by decide
theorem test_payload_wellFormed : Instr.wellFormed (.ramSet 2 [0x41, 0x42]) = true := by decide

/-! ### Decoding: 95_test_vectors.md section 2.1 (commands), section 2.3 (descriptors) -/

theorem test_decode_clkInit : decodeCommand [0x01, 0x00, 0x00, 0x00, 0x00] = .ok (.clkInit, []) := by decide
theorem test_decode_ramGet : decodeCommand [0x02, 0x00, 0x00, 0x00, 0x37] = .ok (.ramGet 55, []) := by decide
theorem test_decode_ramSet :
    decodeCommand [0x03, 0x00, 0x00, 0x00, 0x03, 0x41, 0x42, 0x43, 0x04] =
      .ok (.ramSet 3 [0x41, 0x42, 0x43], [0x04]) := by decide
theorem test_decode_getTime : decodeCommand [0x04, 0x00, 0x00, 0x00, 0x00] = .ok (.getTime, []) := by decide
theorem test_decode_nvmGet : decodeCommand [0x05, 0xFF, 0xFF, 0x00, 0x01] = .ok (.nvmGet 65535 1, []) := by decide
theorem test_decode_nvmSet :
    decodeCommand [0x06, 0x00, 0x40, 0x00, 0x03, 0xAA, 0xBB, 0xCC] = .ok (.nvmSet 64 3 [0xAA, 0xBB, 0xCC], []) := by
  decide
theorem test_decode_reservedOpcode :
    decodeCommand [0x07, 0x00, 0x00, 0x00, 0x00] = .error .reservedOpcode ∧
    decodeCommand [0xFF, 0xFF, 0xFF, 0xFF, 0xFF] = .error .reservedOpcode := by decide
theorem test_decode_reservedFields :
    decodeCommand [0x01, 0x00, 0x00, 0x00, 0x01] = .error .lengthNotZero ∧
    decodeCommand [0x02, 0x00, 0x01, 0x00, 0x03] = .error .offsetNotZero := by decide
theorem test_decode_truncated : decodeCommand [0x03, 0x00, 0x00, 0x00, 0x03, 0x41] = .error .truncated := by decide

/-- 0x0D0_0008_0003 with three payload bytes. -/
theorem test_decode_xferW8 :
    decodeDescriptor [0x00, 0xD0, 0x00, 0x08, 0x00, 0x03, 1, 2, 3] = .ok (.xferW8 0x68 0x08 3 [1, 2, 3], []) := by decide
/-- 0x0D1_0000_0002. -/
theorem test_decode_xferR8 :
    decodeDescriptor [0x00, 0xD1, 0x00, 0x00, 0x00, 0x02] = .ok (.xferR8 0x68 0x00 2, []) := by decide
/-- 0x1A0_0FFF_0001 with one payload byte. -/
theorem test_decode_xferW16 :
    decodeDescriptor [0x01, 0xA0, 0x0F, 0xFF, 0x00, 0x01, 0x7E] = .ok (.xferW16 0x50 4095 1 [0x7E], []) := by decide
/-- 0x1A1_0FA0_00C8. -/
theorem test_decode_xferR16 :
    decodeDescriptor [0x01, 0xA1, 0x0F, 0xA0, 0x00, 0xC8] = .ok (.xferR16 0x50 4000 200, []) := by decide
theorem test_decode_reservedDescriptor :
    decodeDescriptor [0x00, 0xD1, 0x01, 0x00, 0x00, 0x02] = .error .reservedRegister ∧
    decodeDescriptor [0x02, 0xD1, 0x00, 0x00, 0x00, 0x02] = .error .descriptorPadding := by decide

theorem test_tableWord :
    decodeTableWord 40 0x0600400003 = some (.nvmSet 64 3 [0, 0, 0]) ∧
    decodeTableWord 41 0x1A10FA000C8 = some (.xferR16 0x50 4000 200) ∧ decodeTableWord 40 0x0400000002 = none := by decide

/-! ### The pure functions: sections 2.2 and 2.4 -/

theorem test_boundsOk :
    boundsOk 55 56 = true ∧ boundsOk 56 56 = false ∧ boundsOk 256 56 = false ∧ boundsOk 4095 4096 = true ∧
    boundsOk 4096 4096 = false := by decide
theorem test_bcdSplit :
    bcdSplit 0x45 = (4, 5) ∧ bcdSplit 0x00 = (0, 0) ∧ bcdSplit 0xC5 = (4, 5) ∧ bcdSplit 0x3B = (3, 11) := by decide
theorem test_bcdToBin : bcdToBin 5 9 = 59 ∧ bcdToBin 7 15 = 85 := by decide
theorem test_time_packed :
    (TimeReg.ofBytes 0x45 0x12).packed = 0x2292 ∧ (TimeReg.ofBytes 0x59 0x59).packed = 0x2CD9 ∧
    (TimeReg.ofBytes 0xC5 0x80).packed = 0x2280 ∧ (TimeReg.ofBytes 0x07 0x30).packed = 0x03B0 := by decide

/-! ### Transfers issued: section 2.3 -/

theorem test_descriptor_clkInit :
    (clkInitRamXfer Params.common).descriptor = 0x0D000080038 ∧
    (clkInitStartXfer Params.common).descriptor = 0x0D000000001 := by decide
theorem test_descriptor_clock :
    (ramGetXfer Params.common 55).descriptor = 0x0D100080037 ∧
    (ramSetXfer Params.common 5 []).descriptor = 0x0D000080005 ∧
    (getTimeXfer Params.common).descriptor = 0x0D100000002 := by decide
theorem test_descriptor_nvm :
    (nvmGetXfer Params.common 0xFFFF 1).descriptor = 0x1A1FFFF0001 ∧
    (nvmSetXfer Params.common 30 4 []).descriptor = 0x1A0001E0004 := by decide
/-- The other parameters of section 2.3: `CLK_DEV = 0x51`, `RAM_BASE = 0x20`. -/
theorem test_descriptor_otherParameters :
    (ramGetXfer { Params.common with clkDev := 0x51, ramBase := 0x20 } 3).descriptor = 0x0A300200003 := by decide

/-! ### States for the tests -/

/-- A reply with the bytes 45 12 (program P3, step 2). -/
def okReply : Reply := { outcome := .ok, sec := 0x45, min := 0x12 }
/-- A failure. -/
def failReply : Reply := { outcome := .fail, sec := 0x46, min := 0x12 }
/-- A transfer that never completes. -/
def neverReply : Reply := { outcome := .never, sec := 0, min := 0 }

/-- The reset state with the given replies to come. -/
def idle (rs : List Reply) : State := { State.reset with replies := rs }

/-- The same, for a block built with INIT_STOP_ON_FAIL = true. -/
def idleStop (rs : List Reply) : State :=
  { idle rs with params := { Params.common with initStopOnFail := true } }

/-- The state after an instruction. -/
def after (i : Instr) (s : State) : State :=
  match exec i s with
  | .next t => t
  | .fault _ => s
  | .refused _ => s

/-- The state after one step. -/
def afterStep (s : State) : State :=
  match step s with
  | .next t => t
  | .fault _ => s
  | .refused _ => s

/-- What `withFetchWord` places, the next step runs: GET_TIME, then the transfer 0x0D1_0000_0002. -/
theorem test_fetchWord :
    (afterStep (State.reset.withFetchWord 40 0x0400000000)).issued = [getTimeXfer Params.common] ∧
    (afterStep (State.reset.withFetchWord 41 0x0D100000002)).issued = [xferR8Xfer 0x68 0 2] := by decide

/-! ### Single commands and transfers: sections 2.5 and 2.6 -/

/-- T1. -/
theorem test_clkInit :
    (after .clkInit (idle [okReply, okReply])).responses = [{ status := .ok, data := [] }] ∧
    (after .clkInit (idle [okReply, okReply])).clock.counting = true ∧
    (after .clkInit (idle [okReply, okReply])).clock.ram = [] := by decide
/-- T3 and T4: two transfers, or one with INIT_STOP_ON_FAIL. -/
theorem test_clkInit_fails :
    (after .clkInit (idle [failReply, okReply])).responses = [{ status := .transportErr, data := [] }] ∧
    (after .clkInit (idle [failReply, okReply])).issued.length = 2 ∧
    (after .clkInit (idleStop [failReply, okReply])).issued.length = 1 := by decide
/-- T12 and T13. -/
theorem test_ramSet :
    (after (.ramSet 3 [0x41, 0x42, 0x43]) (idle [okReply])).clock.ram = [(0, 0x41), (1, 0x42), (2, 0x43)] ∧
    (after (.ramSet 1 [0x5A]) (after (.ramSet 3 [0x41, 0x42, 0x43]) (idle [okReply, okReply]))).clock.ram =
      [(0, 0x5A), (1, 0x42), (2, 0x43)] := by decide
/-- T15: the byte past the failed write is kept. -/
theorem test_ramSet_fails :
    (after (.ramSet 2 [0, 0]) (after (.ramSet 3 [0x41, 0x42, 0x43]) (idle [okReply, failReply]))).clock.ram.read 2 =
      0x43 := by
  show (Memory.write (Memory.write [(0, 0x41), (1, 0x42), (2, 0x43)] 0 (Config.freeByte 2 0)) 1
    (Config.freeByte 2 1)).read 2 = 0x43
  rw [Memory.read_write_other (by decide), Memory.read_write_other (by decide)]
  rfl
/-- T6 and T7. -/
theorem test_ramGet :
    (after (.ramGet 3) (after (.ramSet 3 [1, 2, 3]) (idle [okReply, okReply]))).responses =
      [{ status := .ok, data := [] }, { status := .ok, data := [1, 2, 3] }] ∧
    (after (.ramGet 0) (idle [okReply])).responses = [{ status := .ok, data := [] }] := by decide
/-- T9. -/
theorem test_ramGet_bounds :
    (after (.ramGet 56) (idle [okReply])).responses = [{ status := .boundsErr, data := [] }] ∧
    (after (.ramGet 56) (idle [okReply])).issued = [] := by decide
/-- Program P3, step 2. -/
theorem test_getTime :
    (after .getTime (idle [okReply])).time = { st := 4, so := 5, mt := 1, mo := 2 } ∧
    (after .getTime (idle [okReply])).tvalid = true := by decide
/-- Program P3, step 3: TIME is stale, TVALID is 0. -/
theorem test_getTime_fails :
    (after .getTime (after .getTime (idle [okReply, failReply]))).time = { st := 4, so := 5, mt := 1, mo := 2 } ∧
    (after .getTime (after .getTime (idle [okReply, failReply]))).tvalid = false := by decide
/-- T20 and T24. -/
theorem test_nvmSet :
    (after (.nvmSet 64 3 [0xAA, 0xBB, 0xCC]) (idle [okReply])).nvm = [(64, 0xAA), (65, 0xBB), (66, 0xCC)] ∧
    (after (.nvmSet 4095 1 [0x7E]) (idle [okReply])).nvm = [(4095, 0x7E)] := by decide
/-- T28 (its length, with no payload to write out) and T30. -/
theorem test_nvmSet_edges :
    (after (.nvmSet 0 4096 []) (idle [okReply])).responses = [{ status := .boundsErr, data := [] }] ∧
    (after (.nvmSet 100 0 []) (idle [okReply])).nvm = [] := by decide
/-- T22. -/
theorem test_nvmGet :
    (after (.nvmGet 65 2) (after (.nvmSet 64 3 [0xAA, 0xBB, 0xCC]) (idle [okReply, okReply]))).responses =
      [{ status := .ok, data := [] }, { status := .ok, data := [0xBB, 0xCC] }] := by decide
/-- T37 and T38. -/
theorem test_nvmGet_ends :
    (after (.nvmGet 0 18) (idle [failReply])).responses = [{ status := .transportErr, data := [] }] ∧
    (after (.nvmGet 0 18) (idle [neverReply])).busy = true := by decide
/-- R96: a one-byte write of 0x00 to the start/stop register; bytes at RAM_BASE and up. -/
theorem test_xferW8 :
    (after (.xferW8 0x68 0x00 1 [0x00]) (idle [okReply])).clock.counting = true ∧
    (after (.xferW8 0x68 0x09 2 [7, 8]) (idle [okReply])).clock.ram = [(1, 7), (2, 8)] := by decide
/-- R32: 0x00 at the start/stop register starts the counter, whatever is written above it. R31: bytes past the end of the RAM
region leave it alone. -/
theorem test_xferW8_edges :
    (after (.xferW8 0x68 0x00 2 [0x00, 0x30]) (idle [okReply])).clock.counting = true ∧
    (after (.xferW8 0x68 0x3F 2 [7, 8]) (idle [okReply])).clock.ram = [(55, 7)] := by decide
/-- R45: a write past pointer 255 stores its RAM bytes and starts the counter as any other (RAM at 0xC8 to 0xFF). -/
theorem test_xferW8_past_255 :
    (after (.xferW8 0x68 0xFF 2 [7, 8]) { idle [okReply] with params := { Params.common with ramBase := 0xC8 } }).clock.ram =
      [(55, 7)] ∧
    (after (.xferW8 0x68 0xFE 3 [0x00, 8, 9])
      { idle [okReply] with params := { Params.common with ssReg := 0xFE } }).clock.counting = true := by decide
/-- R96: a failed write that does not address SS_REG keeps COUNTING, one past the end of the RAM region among them. -/
theorem test_xferW8_fails :
    (after (.xferW8 0x68 0x01 1 [9]) (idle [failReply])).clock.counting = false ∧
    (after (.xferW8 0x68 0x3F 2 [7, 8]) (idle [failReply])).clock.counting = false := by decide
/-- R97: from the start/stop register SEC, MIN; across RAM_BASE+55 is not read here. -/
theorem test_xferR8 :
    (after (.xferR8 0x68 0x00 2) (idle [okReply])).returned = [{ ok := true, data := [0x45, 0x12] }] ∧
    (after (.xferR8 0x68 0x08 1) (idle [failReply])).returned = [{ ok := false, data := [] }] := by decide
/-- R98: a safe write of a whole page's last byte. -/
theorem test_xferW16 : (after (.xferW16 0x50 31 1 [9]) (idle [okReply])).nvm = [(31, 9)] := by decide
/-- R99. -/
theorem test_xferR16 :
    (after (.xferR16 0x50 30 2) (after (.xferW16 0x50 31 1 [9]) (idle [okReply, okReply]))).returned =
      [{ ok := true, data := [] }, { ok := true, data := [0, 9] }] := by decide

/-! ### Witnesses: the hypotheses of the statements can be met -/

theorem idle_inv (rs : List Reply) : (idle rs).Inv := by
  refine ⟨?_, rfl, rfl, ?_, ?_⟩
  · show Params.common.Ok
    decide
  · simp [State.BusyIffWaiting, idle, State.reset]
  · simp [idle, State.reset]

theorem idleStop_inv (rs : List Reply) : (idleStop rs).Inv := by
  refine ⟨?_, rfl, rfl, ?_, ?_⟩
  · show ({ Params.common with initStopOnFail := true } : Params).Ok
    decide
  · simp [State.BusyIffWaiting, idleStop, idle, State.reset]
  · simp [idleStop, idle, State.reset]

/-- A RAM_GET waits for its transfer. -/
def waiting : State := after (.ramGet 55) (idle [neverReply])

theorem waiting_inv : waiting.Inv := by
  refine ⟨by decide, rfl, rfl, ?_, ?_⟩
  · simp [State.BusyIffWaiting, waiting, after, exec, execRamGet, State.accept, State.ready, idle, State.reset,
      State.buffer, boundsOk, Config.ramCap, State.issue, State.await, State.hold, State.handOver, State.occupy,
      neverReply]
  · intro fl h
    have h' : fl = { xfer := ramGetXfer Params.common 55, owner := .buffer } := by
      have : some fl = some { xfer := ramGetXfer Params.common 55, owner := .buffer } := h.symm.trans rfl
      simpa using this
    subst h'
    exact .inl ⟨55, by decide, rfl⟩

/-- O3, StepKeepsTheInvariant; O4, ParametersNeverChange: a step that runs a command. -/
theorem witness_step_keeps :
    ({ idle [okReply] with commands := Instr.encode (.ramSet 1 [0x41]) } : State).Inv ∧
    ∃ t, step { idle [okReply] with commands := Instr.encode (.ramSet 1 [0x41]) } = .next t ∧
      t.clock.ram = [(0, 0x41)] :=
  ⟨idle_inv [okReply], _, rfl, by decide⟩

/-- DecodeOfEncodeIsTheInstruction, at both ends of the operands. -/
theorem witness_decode_of_encode :
    Instr.wellFormed (.nvmSet 0xFFFF 1 [0xFF]) = true ∧ Instr.wellFormed (.xferW8 0x7F 0xFF 0 []) = true ∧
    Instr.wellFormed (.ramGet 0xFFFF) = true := by decide

/-- EncodeOfDecodeIsTheBytes, at each port. -/
theorem witness_encode_of_decode :
    decode .command [0x06, 0xFF, 0xFF, 0x00, 0x01, 0x7E, 0x04] = .ok (.nvmSet 65535 1 [0x7E], [0x04]) ∧
    decode .transfer [0x01, 0xA1, 0xFF, 0xFF, 0x00, 0x01] = .ok (.xferR16 0x50 65535 1, []) := by decide

/-- CommandWordSelectsItsRow: a word of a row, and a word of none. -/
theorem witness_command_word :
    (65535 ≤ (List.replicate 65535 (0 : Byte)).length) ∧
    (0x060040FFFF < 2 ^ 40 ∧ 0x060040FFFF &&& tableMask (.nvmSet 0 0 []) = tableMatch (.nvmSet 0 0 [])) ∧
    (0x0100000001 < 2 ^ 40 ∧ ∀ j : Instr, j.port = .command → 0x0100000001 &&& tableMask j ≠ tableMatch j) := by
  refine ⟨List.length_replicate.ge, by decide, by decide, fun j h => ?_⟩
  cases j <;> first | (simp only [tableMask, tableMatch]; decide) | cases h

/-- DescriptorSelectsItsRow: a word of a row, and a word of none. -/
theorem witness_descriptor_word :
    (65535 ≤ (List.replicate 65535 (0 : Byte)).length) ∧
    (0x0D000FFFFFF < 2 ^ 41 ∧ 0x0D000FFFFFF &&& tableMask (.xferW8 0 0 0 []) = tableMatch (.xferW8 0 0 0 [])) ∧
    (0x0D101000002 < 2 ^ 41 ∧ ∀ j : Instr, j.port = .transfer → 0x0D101000002 &&& tableMask j ≠ tableMatch j) := by
  refine ⟨List.length_replicate.ge, by decide, by decide, fun j _ => ?_⟩
  cases j <;> (simp only [tableMask, tableMatch]; decide)

/-- ReservedCommandWordsAreRefused: each clause, at the ends of its range. -/
theorem witness_reserved :
    ((idle []).Idle ∧ (idle []).descriptors = []) ∧
    (∃ opc : Byte, opc = 0) ∧ (∃ opc : Byte, 7 ≤ opc.toNat) ∧
    (∃ (opc : Byte) (off : Pointer16), 1 ≤ opc.toNat ∧ opc.toNat ≤ 4 ∧ off ≠ 0) ∧
    (∃ (opc : Byte) (off : Pointer16) (len : Length), (opc = 1 ∨ opc = 4) ∧ off = 0 ∧ len ≠ 0) :=
  ⟨by decide, ⟨0, rfl⟩, ⟨7, by decide⟩, ⟨4, 0xFFFF, by decide⟩, ⟨1, 0, 1, by decide⟩⟩

/-- And what the step does with one of them. -/
theorem test_step_refuses :
    (match step { idle [] with commands := [0x07, 0, 0, 0, 0] } with
      | .refused (.invalidWord .reservedOpcode) => true
      | _ => false) = true := by decide

/-- StepRunsThePresentedCommand. -/
theorem witness_step_runs_command :
    ({ idle [okReply] with commands := [0x04, 0, 0, 0, 0, 0xFF] } : State).Idle ∧
    ({ idle [okReply] with commands := [0x04, 0, 0, 0, 0, 0xFF] } : State).descriptors = [] ∧
    decodeCommand [0x04, 0, 0, 0, 0, 0xFF] = .ok (.getTime, [0xFF]) := by decide

/-- StepRunsTheHandedDescriptor. -/
theorem witness_step_runs_descriptor :
    ({ idle [okReply] with descriptors := [0x00, 0xD1, 0, 0, 0, 0x02] } : State).Idle ∧
    ({ idle [okReply] with descriptors := [0x00, 0xD1, 0, 0, 0, 0x02] } : State).descriptors ≠ [] ∧
    decodeDescriptor [0x00, 0xD1, 0, 0, 0, 0x02] = .ok (.xferR8 0x68 0 2, []) := by decide

/-- LateReplyEndsTheInstructionTheSame: CLK_INIT waiting at its first transfer, and at its second after each outcome of the
first. -/
theorem witness_late_reply :
    ((idle []).Idle ∧ (∀ r ∈ (idle []).replies, r.outcome ≠ .never) ∧
      ∃ t, exec .clkInit (idle []) = .next t ∧ t.inFlight.isSome = true) ∧
    ((idle [okReply]).Idle ∧ (∀ r ∈ (idle [okReply]).replies, r.outcome ≠ .never) ∧
      ∃ t, exec .clkInit (idle [okReply]) = .next t ∧ t.inFlight.isSome = true) ∧
    ((idle [failReply]).Idle ∧ (∀ r ∈ (idle [failReply]).replies, r.outcome ≠ .never) ∧
      ∃ t, exec .clkInit (idle [failReply]) = .next t ∧ t.inFlight.isSome = true) :=
  ⟨⟨by decide, by decide, _, rfl, by decide⟩, ⟨by decide, by decide, _, rfl, by decide⟩, by decide, by decide, _, rfl,
    by decide⟩

/-- WaitingCommandHangsUntilReset. -/
theorem witness_hang : waiting.Inv ∧ waiting.busy = true ∧ waiting.powerOn = false ∧ waiting.NoReply :=
  ⟨waiting_inv, by decide, by decide, .inr ⟨neverReply, [], by decide, rfl⟩⟩

/-- BusyBlockAcceptsNoCommand. -/
theorem witness_busy : Instr.port .getTime = .command ∧ waiting.busy = true := by decide

/-- OneTransferOutstanding: each clause. -/
theorem witness_one_transfer :
    (∃ t, exec (.xferR8 0x68 0 2) waiting = .next t ∧ waiting.inFlight.isSome = true) ∧
    (∃ t, exec (.xferR8 0x68 0 2) (idle []) = .next t ∧ (idle []).ready = true) :=
  ⟨⟨_, rfl, by decide⟩, _, rfl, by decide⟩

/-- PowerOnIsTheResetEvent: in a state that waits. -/
theorem witness_powerOn : ({ waiting with powerOn := true } : State).powerOn = true := rfl

/-- PowerOnKeepsThePeripherals: a read abandoned. -/
theorem witness_powerOn_keeps :
    ({ waiting with powerOn := true } : State).Inv ∧ ∃ t, step { waiting with powerOn := true } = .next t ∧
      ∀ fl, waiting.inFlight = some fl → fl.xfer.rnw = true := by
  refine ⟨waiting_inv, _, rfl, fun fl h => ?_⟩
  have h' : some fl = some { xfer := ramGetXfer Params.common 55, owner := .buffer } := h.symm.trans rfl
  simp only [Option.some.injEq] at h'
  rw [h']
  rfl

/-- A state with a bare transfer in flight meets the invariant. -/
theorem flying_inv (x : Xfer) : ({ idle [] with inFlight := some { xfer := x, owner := .bare } } : State).Inv := by
  refine ⟨?_, rfl, rfl, ?_, ?_⟩
  · show Params.common.Ok
    decide
  · simp [State.BusyIffWaiting, idle, State.reset]
  · rintro fl ⟨⟩
    trivial

/-- PowerOnKeepsThePeripherals: an abandoned write from the last RAM byte to past pointer 255, one that starts just above SS_REG,
a safe one to the last NVM byte; each is in flight in a state of the invariant. -/
theorem witness_powerOn_writes :
    (∀ x : Xfer, ({ idle [] with inFlight := some { xfer := x, owner := .bare } } : State).Inv) ∧
    ((xferW8Xfer 0x68 0x3F 200 []).w16 = false ∧ Params.common.ssReg.toNat < (xferW8Xfer 0x68 0x3F 200 []).reg.toNat ∧
      Params.common.ramBase.toNat + 54 < (xferW8Xfer 0x68 0x3F 200 []).reg.toNat) ∧
    Params.common.ssReg.toNat < (xferW8Xfer 0x68 0x01 1 []).reg.toNat ∧
    Params.safeWrite Params.common (4095 : Pointer16).toNat (1 : Length).toNat = true :=
  ⟨flying_inv, by decide, by decide, by decide⟩

/-- PowerOnKeepsThePeripherals: CLK_INIT waits at its first transfer, and at its second. -/
theorem witness_powerOn_clkInit :
    (after .clkInit (idle [])).inFlight = some { xfer := clkInitRamXfer Params.common, owner := .clkInitRam } ∧
    (after .clkInit (idle [failReply])).inFlight =
      some { xfer := clkInitStartXfer Params.common, owner := .clkInitStart false } := by decide

/-- ClkInitFollowsItsRule, ClkInitTwiceIsOnce, and every statement about a ready block that meets the invariant. -/
theorem witness_ready (rs : List Reply) :
    (idle rs).Inv ∧ (idle rs).ready = true ∧ (idleStop rs).Inv ∧ (idleStop rs).ready = true :=
  ⟨idle_inv rs, rfl, idleStop_inv rs, rfl⟩

/-- The clauses of ClkInitFollowsItsRule, by their replies; of the other commands' rules, by their first reply. -/
theorem witness_replies :
    ((idle [okReply, okReply]).replies = [okReply, okReply] ∧ okReply.outcome = .ok) ∧
    ((idle [okReply, failReply]).replies = [okReply, failReply] ∧ failReply.outcome = .fail) ∧
    ((idle [failReply, okReply]).params.initStopOnFail = false) ∧
    ((idleStop [failReply]).params.initStopOnFail = true) ∧
    (idle []).NoReply ∧ (idle [neverReply]).NoReply ∧
    (∃ r₂ rest', [neverReply] = r₂ :: rest' ∧ r₂.outcome = .never) :=
  ⟨⟨rfl, rfl⟩, ⟨rfl, rfl⟩, rfl, rfl, .inl rfl, .inr ⟨neverReply, [], rfl, rfl⟩, neverReply, [], rfl, rfl⟩

/-- ClkInitTwiceIsOnce. -/
theorem witness_clkInit_twice :
    ∃ t u, exec .clkInit (idle [okReply, okReply, okReply, okReply]) = .next t ∧ exec .clkInit t = .next u :=
  ⟨_, _, rfl, rfl⟩

/-- RamGetFollowsItsRule, RamSetFollowsItsRule, NvmGetFollowsItsRule, NvmSetFollowsItsRule: both clauses, at the capacity and
just below it. -/
theorem witness_lengths :
    (56 ≤ (56 : Length).toNat ∧ (55 : Length).toNat < 56) ∧
    (4096 ≤ (4096 : Length).toNat ∧ (4095 : Length).toNat < 4096) ∧
    ((List.replicate 55 (1 : Byte)).length = (55 : Length).toNat ∧
      (List.replicate 56 (1 : Byte)).length = (56 : Length).toNat) := by decide

/-- NvmSetFollowsItsRule: a write of a whole page, and one of no byte. -/
theorem witness_nvmSet_safe :
    (32 : Pointer16).toNat + (32 : Length).toNat ≤ 4096 ∧
    (32 : Pointer16).toNat / Params.common.pageSize =
      ((32 : Pointer16).toNat + (32 : Length).toNat - 1) / Params.common.pageSize ∧
    (0 : Length).toNat = 0 := by decide

/-- GetTimeFollowsItsRule, GetTimeIsFresh, ErrorsChangeNothingElse, ResponseDataIsForReads: the parameters are allowed. -/
theorem witness_params : Params.common.Ok ∧ (idle [okReply]).ready = true := by decide

/-- RamRoundTrip: 3 bytes written, a GET_TIME and a transfer to another identity between, 2 bytes read back. -/
theorem witness_ram_round_trip :
    ∃ t u v d, exec (.ramSet 3 [0x41, 0x42, 0x43]) (idle [okReply, failReply, okReply, okReply]) = .next t ∧
      t.responses = (idle []).responses ++ [{ status := .ok, data := [] }] ∧
      (∀ i ∈ [Instr.getTime, Instr.xferW8 0x21 8 1 [9]], Instr.SparesRam Params.common i) ∧
      execAll [Instr.getTime, Instr.xferW8 0x21 8 1 [9]] t = some u ∧ u.ready = true ∧
      exec (.ramGet 2) u = .next v ∧ v.responses = u.responses ++ [{ status := .ok, data := d }] := by
  refine ⟨_, _, _, [0x41, 0x42], rfl, by decide, ?_, rfl, by decide, rfl, by decide⟩
  simp [Instr.SparesRam, Params.common]

/-- NvmRoundTrip: NVM_SET of bytes 64 to 66, then an XFER_W16 of byte 67 and a RAM_SET over the limit; byte 66 is then the
first byte of a read of 66 and 67. -/
theorem witness_nvm_round_trip :
    ∃ t u v d, exec (.nvmSet 64 3 [0xAA, 0xBB, 0xCC]) (idle [okReply, okReply, okReply]) = .next t ∧
      Instr.StoredNvm (.nvmSet 64 3 [0xAA, 0xBB, 0xCC]) (idle []) t 64 3 [0xAA, 0xBB, 0xCC] ∧
      Params.safeWrite Params.common (64 : Pointer16).toNat (3 : Length).toNat = true ∧
      (64 : Pointer16).toNat ≤ (66 : Pointer16).toNat + 0 ∧
      (66 : Pointer16).toNat + 0 < (64 : Pointer16).toNat + (3 : Length).toNat ∧
      (∀ j ∈ [Instr.xferW16 0x50 67 1 [9], Instr.ramSet 56 []],
        Instr.SparesNvm Params.common ((66 : Pointer16).toNat + 0) 1 j) ∧
      execAll [Instr.xferW16 0x50 67 1 [9], Instr.ramSet 56 []] t = some u ∧ u.ready = true ∧
      exec (.nvmGet 66 2) u = .next v ∧ v.responses = u.responses ++ [{ status := .ok, data := d }] := by
  refine ⟨_, _, _, [0xCC, 9], rfl, .inl ⟨rfl, by decide⟩, by decide, by decide, by decide, ?_, rfl, by decide, rfl,
    by decide⟩
  simp only [List.mem_cons, List.not_mem_nil, or_false, forall_eq_or_imp, forall_eq]
  exact ⟨.inr ⟨by decide, .inr ⟨by decide, .inr (by decide)⟩⟩, trivial⟩

/-- NvmRoundTrip: the second byte of that read comes from the XFER_W16. -/
theorem witness_nvm_round_trip_transfer :
    ∃ t v d, exec (.xferW16 0x50 67 1 [9]) (idle [okReply, okReply]) = .next t ∧
      Instr.StoredNvm (.xferW16 0x50 67 1 [9]) (idle []) t 67 1 [9] ∧ t.ready = true ∧
      (67 : Pointer16).toNat ≤ (66 : Pointer16).toNat + 1 ∧
      (66 : Pointer16).toNat + 1 < (67 : Pointer16).toNat + (1 : Length).toNat ∧
      exec (.nvmGet 66 2) t = .next v ∧ v.responses = t.responses ++ [{ status := .ok, data := d }] :=
  ⟨_, _, [0, 9], rfl, .inr ⟨rfl, by decide⟩, by decide, by decide, by decide, rfl, by decide⟩

/-- NvmCommandsKeepTheClockDevice, ClockCommandsKeepTheNvm, OnlyGetTimeWritesTime, RamByte55IsOutOfReach. -/
theorem witness_frames :
    (∃ t, exec (.nvmSet 0 1 [1]) (idle [okReply]) = .next t ∧ t.nvm = [(0, 1)]) ∧
    (∃ t, exec (.ramSet 1 [1]) (idle [okReply]) = .next t ∧ t.clock.ram = [(0, 1)]) ∧
    (∃ t d, exec (.ramGet 55) (idle [okReply]) = .next t ∧
      t.responses = (idle [okReply]).responses ++ [{ status := .ok, data := d }]) :=
  ⟨⟨_, rfl, by decide⟩, ⟨_, rfl, by decide⟩, _, List.replicate 55 0, rfl, by decide⟩

/-- OffsetIsNotChecked: the highest offset and the lowest. -/
theorem witness_offset :
    ∃ t t', exec (.nvmGet 0xFFFF 1) (idle [okReply]) = .next t ∧ exec (.nvmGet 0 1) (idle [okReply]) = .next t' ∧
      (idle [okReply]).ready = true :=
  ⟨_, _, rfl, rfl, rfl⟩

/-- BoundsErrorExactlyWhenOverLimit, CommandRespondsOnceOrWaits, BlockEmitsOnlySevenShapes: a length over the limit, and one
within it. -/
theorem witness_over_limit :
    (∃ t, exec (.ramGet 56) (idle [okReply]) = .next t ∧ (Instr.ramGet 56).OverLimit) ∧
    (∃ t, exec (.ramGet 55) (idle [okReply]) = .next t ∧ ¬ (Instr.ramGet 55).OverLimit) :=
  ⟨⟨_, rfl, show 56 ≤ (56 : Length).toNat by decide⟩, _, rfl, show ¬ 56 ≤ (55 : Length).toNat by decide⟩

/-- ResponseDataIsForReads and ErrorsChangeNothingElse: a response that is OK, and one of each error. -/
theorem witness_responses :
    (∃ t d, exec (.nvmGet 0 18) (idle [okReply]) = .next t ∧
      t.responses = (idle [okReply]).responses ++ [{ status := .ok, data := d }]) ∧
    (∃ t, exec .getTime (idle [failReply]) = .next t ∧
      t.responses = (idle [failReply]).responses ++ [{ status := .transportErr, data := [] }]) ∧
    (∃ t, exec (.nvmSet 0 4096 (List.replicate 4096 0)) (idle [okReply]) = .next t ∧
      t.responses = (idle [okReply]).responses ++ [{ status := .boundsErr, data := [] }]) :=
  ⟨⟨_, List.replicate 18 0, rfl, by decide⟩, ⟨_, rfl, by decide⟩, _, rfl, by decide⟩

/-- A GET_TIME that waits meets the invariant. -/
theorem waiting_getTime_inv (rs : List Reply) :
    ({ idle rs with busy := true, inFlight := some { xfer := getTimeXfer Params.common, owner := .getTime } } : State).Inv := by
  refine ⟨?_, rfl, rfl, ?_, ?_⟩
  · show Params.common.Ok
    decide
  · simp [State.BusyIffWaiting]
  · rintro fl ⟨⟩
    rfl

/-- TimeChangesOnlyBySuccess: a GET_TIME taken from the stream that succeeds, one that waits and fails, and a step that runs
none. -/
theorem witness_time_changes :
    (({ idle [okReply] with commands := Instr.encode .getTime } : State).Inv ∧
      ({ idle [okReply] with commands := Instr.encode .getTime } : State).RunsGetTime ∧
      ∃ t, step { idle [okReply] with commands := Instr.encode .getTime } = .next t) ∧
    (({ idle [failReply] with busy := true, inFlight := some ⟨getTimeXfer Params.common, .getTime⟩ } : State).Inv ∧
      ({ idle [failReply] with
        busy := true, inFlight := some ⟨getTimeXfer Params.common, .getTime⟩ } : State).RunsGetTime ∧
      ∃ t, step { idle [failReply] with busy := true, inFlight := some ⟨getTimeXfer Params.common, .getTime⟩ } =
        .next t) ∧
    ((idle []).Inv ∧ (idle []).NoReply ∧ ∃ t, step (idle []) = .next t) :=
  ⟨⟨idle_inv [okReply], .inl ⟨by decide, rfl, [], by decide⟩, _, rfl⟩,
    ⟨waiting_getTime_inv [failReply], .inr ⟨_, rfl⟩, _, rfl⟩, idle_inv [], .inl rfl, _, rfl⟩

/-- TransfersWriteNoFlag, TransferEndsAsTheBusAnswers, TransferTouchesItsDeviceOnly: an identity of neither device, and a
pointer width that is not the device's. -/
theorem witness_other_identities :
    (transferOf (.xferW16 0x21 0 1 [1]) = some (xferW16Xfer 0x21 0 1 [1]) ∧ (idle [okReply]).inFlight = none ∧
      okReply.outcome ≠ .never ∧ ∃ t, exec (.xferW16 0x21 0 1 [1]) (idle [okReply]) = .next t) ∧
    (transferOf (.xferR16 0x68 0 1) = some (xferR16Xfer 0x68 0 1) ∧
      ∃ t, exec (.xferR16 0x68 0 1) (idle [okReply]) = .next t) :=
  ⟨⟨rfl, rfl, by decide, _, rfl⟩, rfl, _, rfl⟩

/-- XferW8WritesTheClockDevice, XferR8ReadsTheClockDevice: the RAM region from end to end, a write across its edge to past
pointer 255, the start/stop register with the byte above it, and that byte alone. -/
theorem witness_clock_transfers :
    (Params.common.ramBase.toNat ≤ (0x08 : Pointer8).toNat ∧
      (0x08 : Pointer8).toNat + (56 : Length).toNat ≤ Params.common.ramBase.toNat + 56) ∧
    ((0x3F : Pointer8).toNat + 0 = Params.common.ramBase.toNat + 55 ∧
      256 < (0x3F : Pointer8).toNat + (200 : Length).toNat ∧ Params.common.ssReg.toNat < (0x01 : Pointer8).toNat) ∧
    ((0x00 : Pointer8).toNat ≤ Params.common.ssReg.toNat ∧
      ([0x00, 0x30] : List Byte)[Params.common.ssReg.toNat - (0x00 : Pointer8).toNat]? = some 0 ∧
      ([0x00, 0x30] : List Byte).length = (2 : Length).toNat) ∧
    ((0x00 : Pointer8).toNat + 1 = Params.common.ssReg.toNat + 1 ∧ 1 < (2 : Length).toNat) ∧
    (0x3F : Pointer8).toNat + 0 ≤ Params.common.ramBase.toNat + 55 := by decide

/-- XferW16WritesTheNvmDevice, XferR16ReadsTheNvmDevice: the last byte, a zero-length write, and a read to the end. -/
theorem witness_nvm_transfers :
    (0 < (1 : Length).toNat ∧ Params.safeWrite Params.common (4095 : Pointer16).toNat (1 : Length).toNat = true) ∧
    (0 : Length).toNat = 0 ∧ (0 : Pointer16).toNat + (4096 : Length).toNat ≤ 4096 := by decide

/-- ZeroLengthTransfersMoveNothing. -/
theorem witness_zero_length :
    ∃ t, exec (.xferW16 0x50 0xFFFF 0 []) (idle [okReply]) = .next t ∧ t.returned = [{ ok := true, data := [] }] :=
  ⟨_, rfl, by decide⟩

/-- CanonicalMemoriesAreEqual: writing 0x00 over a byte leaves the memory that never held one. -/
theorem witness_canonical :
    Memory.wf 56 (Memory.write [(3, 0x41)] 3 0x00) = true ∧ Memory.wf 56 [] = true ∧
    Memory.SameReads (Memory.write [(3, 0x41)] 3 0x00) [] :=
  ⟨by decide, by decide, fun _ => rfl⟩

/-- SequencerFollowsItsTable, SelfTestReadsBackWhatItWrote, PollLoopCycle: the host in the state each starts from. -/
theorem witness_host :
    ((idle []).Idle ∧ (idle []).descriptors = [] ∧ (idle []).commands = [] ∧ (idle []).host = .busInit) ∧
    (({ idle [okReply, okReply, okReply, okReply] with host := .clockInit } : State).Inv ∧
      ({ idle [okReply, okReply, okReply, okReply] with host := .clockInit } : State).Idle) ∧
    (({ idle [okReply] with host := .pollLoop } : State).params.Ok ∧
      ({ idle [okReply] with host := .pollLoop } : State).Idle ∧ okReply.outcome ≠ .never) :=
  ⟨by decide, ⟨idle_inv [okReply, okReply, okReply, okReply], by decide⟩, by decide⟩

end Sys2Proof.Tests
end

section
/-! The command word of R71 as 40 bits, what its mask and match select (R74), and which words are reserved (R76). -/

namespace Sys2Proof

/-- The 40 bits of a command word: OPC, OFFSET, LENGTH from the most significant end (R71). -/
def commandWord (opc : Byte) (off : Pointer16) (len : Length) : BitVec (8 + 16 + 16) := opc ++ off ++ len

/-- The fields R76 leaves unreserved: OPC from 1 to 6, OFFSET zero up to OPC 4, LENGTH zero for CLK_INIT and GET_TIME. -/
def ValidCommand (opc : Byte) (off : Pointer16) (len : Length) : Prop :=
  (1 ≤ opc.toNat ∧ opc.toNat ≤ 6) ∧ (opc.toNat ≤ 4 → off = 0) ∧ (opc.toNat = 1 ∨ opc.toNat = 4 → len = 0)

/-! ### The word and its fields -/

theorem commandWord_toNat (opc : Byte) (off : Pointer16) (len : Length) :
    (commandWord opc off len).toNat = opc.toNat * 2 ^ 32 + off.toNat * 2 ^ 16 + len.toNat := by
  simp only [commandWord, BitVec.toNat_append]
  rw [← Nat.shiftLeft_add_eq_or_of_lt off.isLt, ← Nat.shiftLeft_add_eq_or_of_lt len.isLt]
  simp only [Nat.shiftLeft_eq]
  omega

theorem commandWord_inj {opc opc' : Byte} {off off' : Pointer16} {len len' : Length} :
    commandWord opc off len = commandWord opc' off' len' ↔ opc = opc' ∧ off = off' ∧ len = len' := by
  have h1 := off.isLt
  have h2 := off'.isLt
  have h3 := len.isLt
  have h4 := len'.isLt
  simp only [← BitVec.toNat_inj, commandWord_toNat]
  omega

theorem exists_commandWord {w : Nat} (h : w < 2 ^ 40) : ∃ opc off len, w = (commandWord opc off len).toNat := by
  refine ⟨BitVec.ofNat 8 (w / 2 ^ 32), BitVec.ofNat 16 (w / 2 ^ 16), BitVec.ofNat 16 w, ?_⟩
  simp only [commandWord_toNat, BitVec.toNat_ofNat]
  omega

theorem highByte_toNat (v : BitVec 16) : (highByte v).toNat = v.toNat / 256 := by
  have := v.isLt
  simp only [highByte, BitVec.extractLsb'_toNat, Nat.shiftRight_eq_div_pow]
  omega

theorem lowByte_toNat (v : BitVec 16) : (lowByte v).toNat = v.toNat % 256 := by
  simp [lowByte]

/-- The five bytes of the word, most significant first, are the bytes of its fields (R72). -/
theorem numberBytes_commandWord (opc : Byte) (off : Pointer16) (len : Length) :
    numberBytes (commandWord opc off len).toNat 5 = commandBytes opc off len := by
  have h1 := opc.isLt
  have h2 := off.isLt
  have h3 := len.isLt
  simp only [numberBytes, commandBytes, commandWord_toNat, List.cons.injEq, and_true, ← BitVec.toNat_inj,
    BitVec.toNat_ofNat, highByte_toNat, lowByte_toNat]
  omega

/-! ### Mask and match -/

/-- Masking a command word masks each of its fields. -/
theorem commandWord_and_eq_iff (opc mo co : Byte) (off mf cf : Pointer16) (len ml cl : Length) :
    (commandWord opc off len).toNat &&& (commandWord mo mf ml).toNat = (commandWord co cf cl).toNat ↔
      opc &&& mo = co ∧ off &&& mf = cf ∧ len &&& ml = cl := by
  rw [← BitVec.toNat_and, BitVec.toNat_inj, ← commandWord_inj]
  simp only [commandWord, BitVec.and_append]

end Sys2Proof

namespace Sys2Proof.Machine

/-- R74 in terms of the fields: a word selects the row of a command exactly when the row's OPC is the word's and the word is
not reserved. -/
theorem commandWord_selects_iff (opc : Byte) (off : Pointer16) (len : Length) {j : Instr} (hj : j.port = .command) :
    (commandWord opc off len).toNat &&& tableMask j = tableMatch j ↔
      tableMatch j = opc.toNat * 2 ^ 32 ∧ ValidCommand opc off len := by
  have opcOnly (k : Byte) : (commandWord opc off len).toNat &&& (commandWord (BitVec.allOnes 8) 0 0).toNat =
      (commandWord k 0 0).toNat ↔ opc = k := by
    rw [commandWord_and_eq_iff, BitVec.and_allOnes]
    simp
  have offZero (k : Byte) : (commandWord opc off len).toNat &&&
      (commandWord (BitVec.allOnes 8) (BitVec.allOnes 16) 0).toNat = (commandWord k 0 0).toNat ↔
      opc = k ∧ off = 0 := by
    rw [commandWord_and_eq_iff, BitVec.and_allOnes, BitVec.and_allOnes]
    simp
  have bothZero (k : Byte) : (commandWord opc off len).toNat &&&
      (commandWord (BitVec.allOnes 8) (BitVec.allOnes 16) (BitVec.allOnes 16)).toNat = (commandWord k 0 0).toNat ↔
      opc = k ∧ off = 0 ∧ len = 0 := by
    rw [commandWord_and_eq_iff, BitVec.and_allOnes, BitVec.and_allOnes, BitVec.and_allOnes]
  unfold ValidCommand
  -- each row's mask and match are themselves command words, of all-ones or zero fields
  cases j with
  | clkInit => exact (bothZero 1).trans (by simp only [tableMatch]; bv_omega)
  | ramGet _ => exact (offZero 2).trans (by simp only [tableMatch]; bv_omega)
  | ramSet _ _ => exact (offZero 3).trans (by simp only [tableMatch]; bv_omega)
  | getTime => exact (bothZero 4).trans (by simp only [tableMatch]; bv_omega)
  | nvmGet _ _ => exact (opcOnly 5).trans (by simp only [tableMatch]; bv_omega)
  | nvmSet _ _ _ => exact (opcOnly 6).trans (by simp only [tableMatch]; bv_omega)
  | xferW8 => cases hj
  | xferR8 => cases hj
  | xferW16 => cases hj
  | xferR16 => cases hj

/-! ### Reserved words and the decoder -/

/-- A word outside R74's rows, in the three ways of R76. -/
theorem not_validCommand_iff {opc : Byte} {off : Pointer16} {len : Length} :
    ¬ ValidCommand opc off len ↔
      (opc = 0 ∨ 7 ≤ opc.toNat) ∨ (1 ≤ opc.toNat ∧ opc.toNat ≤ 4 ∧ off ≠ 0) ∨
      ((opc = 1 ∨ opc = 4) ∧ off = 0 ∧ len ≠ 0) := by
  unfold ValidCommand
  bv_omega

theorem decodeCommandFields_reservedOpcode {opc : Byte} (h : opc = 0 ∨ 7 ≤ opc.toNat) (off : Pointer16) (len : Length)
    (rest : List Byte) : decodeCommandFields opc off len rest = .error .reservedOpcode := by
  unfold decodeCommandFields
  split
  case h_7 => rfl
  all_goals bv_omega

theorem decodeCommandFields_offsetNotZero {opc : Byte} {off : Pointer16} (h : 1 ≤ opc.toNat ∧ opc.toNat ≤ 4 ∧ off ≠ 0)
    (len : Length) (rest : List Byte) : decodeCommandFields opc off len rest = .error .offsetNotZero := by
  obtain ⟨h1, h4, hoff⟩ := h
  obtain hk | hk | hk | hk : opc.toNat = 1 ∨ opc.toNat = 2 ∨ opc.toNat = 3 ∨ opc.toNat = 4 := by omega
  all_goals simp only [decodeCommandFields, hk, if_pos hoff]

theorem decodeCommandFields_lengthNotZero {opc : Byte} {off : Pointer16} {len : Length}
    (h : (opc = 1 ∨ opc = 4) ∧ off = 0 ∧ len ≠ 0) (rest : List Byte) :
    decodeCommandFields opc off len rest = .error .lengthNotZero := by
  obtain ⟨rfl | rfl, rfl, hlen⟩ := h
  all_goals exact if_pos hlen

theorem takePayload_of_long {rest : List Byte} (h : 65535 ≤ rest.length) (len : Length) :
    takePayload len rest = .ok (rest.take len.toNat, rest.drop len.toNat) := by
  have hlen := len.isLt
  exact if_pos ((hasBytes_iff _ _).2 (by omega))

theorem decodeCommandFields_of_not_valid {opc : Byte} {off : Pointer16} {len : Length}
    (h : ¬ ValidCommand opc off len) (rest : List Byte) : ∃ e, decodeCommandFields opc off len rest = .error e := by
  obtain h | h | h := not_validCommand_iff.1 h
  · exact ⟨_, decodeCommandFields_reservedOpcode h off len rest⟩
  · exact ⟨_, decodeCommandFields_offsetNotZero h len rest⟩
  · exact ⟨_, decodeCommandFields_lengthNotZero h rest⟩

/-- A word that is not reserved, with no payload cut short, decodes to a command of the row of its OPC. -/
theorem decodeCommandFields_of_valid {opc : Byte} {off : Pointer16} {len : Length} (h : ValidCommand opc off len)
    {rest : List Byte} (hrest : 65535 ≤ rest.length) :
    ∃ i r, decodeCommandFields opc off len rest = .ok (i, r) ∧ i.port = .command ∧
      tableMatch i = opc.toNat * 2 ^ 32 := by
  obtain ⟨⟨h1, h6⟩, hoff, hlen⟩ := h
  obtain hk | hk | hk | hk | hk | hk : opc.toNat = 1 ∨ opc.toNat = 2 ∨ opc.toNat = 3 ∨ opc.toNat = 4 ∨
    opc.toNat = 5 ∨ opc.toNat = 6 := by omega
  · exact ⟨.clkInit, rest, by simp [decodeCommandFields, hk, hoff, hlen], rfl, by simp [tableMatch, hk]⟩
  · exact ⟨.ramGet len, rest, by simp [decodeCommandFields, hk, hoff], rfl, by simp [tableMatch, hk]⟩
  · exact ⟨.ramSet len (rest.take len.toNat), rest.drop len.toNat,
      by simp [decodeCommandFields, hk, hoff, takePayload_of_long hrest], rfl, by simp [tableMatch, hk]⟩
  · exact ⟨.getTime, rest, by simp [decodeCommandFields, hk, hoff, hlen], rfl, by simp [tableMatch, hk]⟩
  · exact ⟨.nvmGet off len, rest, by simp [decodeCommandFields, hk], rfl, by simp [tableMatch, hk]⟩
  · exact ⟨.nvmSet off len (rest.take len.toNat), rest.drop len.toNat,
      by simp [decodeCommandFields, hk, takePayload_of_long hrest], rfl, by simp [tableMatch, hk]⟩

/-- Settles O7: the fields of a word decide both which rows its bits select and what it decodes to. -/
theorem commandWordSelectsItsRow : Obligations.CommandWordSelectsItsRow := by
  intro w rest hw hrest
  obtain ⟨opc, off, len, rfl⟩ := exists_commandWord hw
  rw [numberBytes_commandWord, decodeCommand_commandBytes]
  by_cases hv : ValidCommand opc off len
  · obtain ⟨i, r, hi, hport, hmatch⟩ := decodeCommandFields_of_valid hv hrest
    have hsel := (commandWord_selects_iff opc off len hport).2 ⟨hmatch, hv⟩
    refine ⟨fun j hj => ?_, fun hnone => absurd hsel (hnone i hport)⟩
    rw [commandWord_selects_iff opc off len hj, hi, ← hmatch]
    simp [hv, eq_comm]
  · obtain ⟨e, he⟩ := decodeCommandFields_of_not_valid hv rest
    refine ⟨fun j hj => ?_, fun _ => ⟨e, he⟩⟩
    simp [commandWord_selects_iff opc off len hj, hv, he]

/-! ### The step on a reserved word -/

theorem State.fetch_reserved {s : State} {opc : Byte} {off : Pointer16} {len : Length} {rest : List Byte}
    {e : DecodeError} (hd : s.descriptors = []) (hc : s.commands = commandBytes opc off len ++ rest)
    (he : decodeCommandFields opc off len rest = .error e) : s.fetch = some (.error e) := by
  have hdec : decodeCommand s.commands = .error e := by rw [hc, decodeCommand_commandBytes, he]
  have hne : s.commands ≠ [] := by simp [hc, commandBytes]
  unfold State.fetch
  split
  case h_1 h => exact absurd h hne
  case h_2 => rw [hdec]
  case h_3 h _ => exact absurd hd h

/-- Settles O9: the decoder names the reason, and an idle step refuses under that name. -/
theorem reservedCommandWordsAreRefused : Obligations.ReservedCommandWordsAreRefused := by
  intro s opc off len rest hs hd hc
  have refuses {e} (he : decodeCommandFields opc off len rest = .error e) : step s = .refused (.invalidWord e) :=
    step_reserved hs (State.fetch_reserved hd hc he)
  exact ⟨fun h => refuses (decodeCommandFields_reservedOpcode h off len rest),
    fun h => refuses (decodeCommandFields_offsetNotZero h len rest),
    fun h => refuses (decodeCommandFields_lengthNotZero h rest)⟩

end Sys2Proof.Machine
end

section
/-! The clock commands (41_clock.md): the digits of a BCD byte, what each command's transfer reads and leaves, and the
round trip through the RAM. -/

namespace Sys2Proof.Machine

/-! ### The BCD decoder -/

/-- Settles O26: `tens` and `ones` are bits [6:4] and [3:0]. -/
theorem bcdSplitTakesTheDigits : Obligations.BcdSplitTakesTheDigits := by
  intro b
  simp [bcdSplit, Nat.shiftRight_eq_div_pow]

/-- Settles O28: the sum of 3-bit tens and 4-bit ones stays below 2 ^ 7. -/
theorem bcdToBinIsTensAndOnes : Obligations.BcdToBinIsTensAndOnes := by
  intro tens ones
  have ht := tens.isLt
  have ho := ones.isLt
  have hsum : (bcdToBin tens ones).toNat = 10 * tens.toNat + ones.toNat := by
    simp only [bcdToBin, BitVec.toNat_add, BitVec.toNat_mul, BitVec.toNat_setWidth,
      show (10 : BitVec 7).toNat = 10 from rfl]
    omega
  omega

/-! ### A command that issues its transfer at once, given what the bus answers -/

theorem State.accept_issue_answered {s : State} (hr : s.ready = true) (x : State → Xfer) (o : Owner)
    (fin : Bool → List Byte → State → State) {r : Reply} {rest : List Reply} {ok : Bool} (h : s.replies = r :: rest)
    (ho : r.outcome = if ok then .ok else .fail) :
    s.accept (fun s => s.issue (x s) o fin) =
      .next (fin ok ((x s.occupy).data ok (s.atAnswer (x s.occupy) r rest))
        ((s.occupy.handOver (x s.occupy)).answer (x s.occupy) r rest ok)) := by
  rw [State.accept_ready hr, State.issue_answered (s := s.occupy) _ _ _ h ho]
  rfl

theorem State.accept_issue_noReply {s : State} (hr : s.ready = true) (hn : s.NoReply) (x : State → Xfer) (o : Owner)
    (fin : Bool → List Byte → State → State) :
    s.accept (fun s => s.issue (x s) o fin) = .next { s with
      busy := true
      inFlight := some { xfer := x s.occupy, owner := o }
      issued := s.issued ++ [x s.occupy] } := by
  rw [State.accept_ready hr, State.occupy_issue_noReply hn]

/-! ### A buffer command, given what the bus answers (R94) -/

section buffer

variable {s : State} {cap : Nat} {len : Length}

theorem State.accept_buffer_answered (hr : s.ready = true) (x : State → Xfer) (hl : len.toNat < cap) {r : Reply}
    {rest : List Reply} {ok : Bool} (h : s.replies = r :: rest) (ho : r.outcome = if ok then .ok else .fail) :
    s.accept (fun s => s.buffer cap len (x s)) = .next { s with
      clock := ((x s.occupy).effect ok (s.atAnswer (x s.occupy) r rest)).clock
      nvm := ((x s.occupy).effect ok (s.atAnswer (x s.occupy) r rest)).nvm
      replies := rest, draws := s.draws + 1
      issued := s.issued ++ [x s.occupy]
      returned := s.returned ++ [{ ok := ok, data := (x s.occupy).data ok (s.atAnswer (x s.occupy) r rest) }]
      responses := s.responses ++
        [{ status := if ok then .ok else .transportErr
           data := (x s.occupy).data ok (s.atAnswer (x s.occupy) r rest) }] } := by
  rw [State.accept_buffer_within hr x hl, State.buffer_answered hr _ h ho]

theorem State.accept_buffer_noReply (hr : s.ready = true) (x : State → Xfer) (hl : len.toNat < cap) (hn : s.NoReply) :
    s.accept (fun s => s.buffer cap len (x s)) = .next { s with
      busy := true
      inFlight := some { xfer := x s.occupy, owner := .buffer }
      issued := s.issued ++ [x s.occupy] } := by
  rw [State.accept_buffer_within hr x hl, State.occupy_issue_noReply hn]

/-- A buffer command that reads, answered: the devices keep all but the running counter (R97, R99). -/
theorem State.accept_buffer_read_answered (hr : s.ready = true) {x : State → Xfer} (hx : (x s.occupy).rnw = true)
    (hl : len.toNat < cap) {r : Reply} {rest : List Reply} {ok : Bool} (h : s.replies = r :: rest)
    (ho : r.outcome = if ok then .ok else .fail) :
    s.accept (fun s => s.buffer cap len (x s)) = .next { s with
      clock := { s.clock with sec := r.sec, min := r.min }
      replies := rest, draws := s.draws + 1
      issued := s.issued ++ [x s.occupy]
      returned := s.returned ++ [{ ok := ok, data := (x s.occupy).data ok (s.atAnswer (x s.occupy) r rest) }]
      responses := s.responses ++
        [{ status := if ok then .ok else .transportErr
           data := (x s.occupy).data ok (s.atAnswer (x s.occupy) r rest) }] } := by
  rw [State.accept_buffer_answered hr x hl h ho, Xfer.effect_read hx]
  rfl

/-- A buffer command that responds OK had a length that passes, and its response is the data of its transfer. -/
theorem State.accept_buffer_responds_ok {t : State} (hr : s.ready = true) (x : State → Xfer)
    (h : s.accept (fun s => s.buffer cap len (x s)) = .next t) {d : List Byte}
    (hd : t.responses = s.responses ++ [{ status := .ok, data := d }]) :
    len.toNat < cap ∧ t.params = s.params ∧ ∃ r rest,
      t.clock = ((x s.occupy).effect true (s.atAnswer (x s.occupy) r rest)).clock ∧
      t.nvm = ((x s.occupy).effect true (s.atAnswer (x s.occupy) r rest)).nvm ∧
      d = (x s.occupy).data true (s.atAnswer (x s.occupy) r rest) := by
  obtain ⟨-, rfl⟩ | ⟨-, -, rfl⟩ | ⟨hl, r, rest, ok, -, -, rfl⟩ := State.accept_buffer_cases hr x h
  · simp at hd
  · simp at hd
  · cases ok with
    | false => simp at hd
    | true => exact ⟨hl, rfl, r, rest, rfl, rfl, by simpa using hd.symm⟩

end buffer

/-! ### RAM_GET and RAM_SET (R111, R112) -/

/-- The data of a RAM_GET's transfer are the first `len` bytes of the RAM. -/
theorem ramGetXfer_data {s : State} {len : Length} (hl : len.toNat < 56) :
    (ramGetXfer s.params len).data true s = s.clock.ram.readBytes 0 len.toNat := by
  have hread := s.clock.read_inRam s.params s.draws 0 len.toNat (by omega)
  rw [Nat.add_zero, ← zext16_toNat] at hread
  exact (Xfer.fetch_clock (x := ramGetXfer s.params len) rfl rfl).trans hread

/-- Settles O22: the length decides whether a transfer is issued, and its reply how the command ends. -/
theorem ramGetFollowsItsRule : Obligations.RamGetFollowsItsRule := by
  intro s len hr
  refine ⟨State.accept_buffer_over hr fun u => ramGetXfer u.params len, fun hl => ⟨?ok, ?fail, ?wait⟩⟩
  case ok =>
    intro r rest h ho
    have hdata : (ramGetXfer s.params len).data true (s.atAnswer (ramGetXfer s.params len) r rest) =
        s.clock.ram.readBytes 0 len.toNat := ramGetXfer_data (s := s.atAnswer _ r rest) hl
    refine ⟨_, Memory.readBytes_length s.clock.ram 0 len.toNat, fun i hi => ?_, ?_⟩
    · rw [Memory.readBytes_getElem? _ _ _ _ hi, Nat.zero_add]
    · rw [← hdata]
      exact State.accept_buffer_read_answered (ok := true) (x := fun u => ramGetXfer u.params len) hr rfl hl h ho
  case fail =>
    intro r rest h ho
    exact State.accept_buffer_read_answered (ok := false) (x := fun u => ramGetXfer u.params len) hr rfl hl h ho
  case wait => exact State.accept_buffer_noReply hr (fun u => ramGetXfer u.params len) hl

/-- A write transfer of `len` bytes from RAM[0] up stores some `len` bytes there, its payload when it succeeds (R96). -/
theorem ramWrite_effect {s : State} (hc : s.params.Ok) {len : Length} {bs : List Byte} (hb : bs.length = len.toNat)
    (hl : len.toNat ≤ 56) (ok : Bool) :
    ∃ stored : List Byte, stored.length = len.toNat ∧ (ok = true → stored = bs) ∧
      (clockXfer s.params false s.params.ramBase len bs).effect ok s =
        { s with clock := { s.clock with ram := s.clock.ram.writeBytes 0 stored } } := by
  have hreg : (zext16 s.params.ramBase).toNat = s.params.ramBase.toNat + 0 := zext16_toNat _
  have hlen : 0 + len.toNat ≤ 56 := by omega
  rw [Xfer.effect_toClock rfl rfl]
  cases ok with
  | true => exact ⟨bs, hb, fun _ => rfl, by rw [Xfer.clockAfter_inRam_ok rfl hreg hb hlen]; rfl⟩
  | false =>
    obtain ⟨stored, hs, he⟩ := Xfer.clockAfter_inRam_fail
      (x := clockXfer s.params false s.params.ramBase len bs) hc rfl hreg hlen
    exact ⟨stored, hs, by simp, by rw [he]⟩

/-- RAM_SET, answered: some `len` bytes stand from RAM[0] up, those of the payload after a success (R96, R112). -/
theorem execRamSet_answered {s : State} (hc : s.params.Ok) (hr : s.ready = true) {len : Length} {bs : List Byte}
    (hb : bs.length = len.toNat) (hl : len.toNat < 56) {r : Reply} {rest : List Reply} {ok : Bool}
    (h : s.replies = r :: rest) (ho : r.outcome = if ok then .ok else .fail) :
    ∃ stored : List Byte, stored.length = len.toNat ∧ (ok = true → stored = bs) ∧
      exec (.ramSet len bs) s = .next { s with
        clock := { s.clock with ram := s.clock.ram.writeBytes 0 stored, sec := r.sec, min := r.min }
        replies := rest, draws := s.draws + 1
        issued := s.issued ++ [ramSetXfer s.params len bs]
        returned := s.returned ++ [{ ok := ok, data := [] }]
        responses := s.responses ++ [{ status := if ok then .ok else .transportErr, data := [] }] } := by
  obtain ⟨stored, hs, hok, he⟩ := ramWrite_effect (s := s.atAnswer (ramSetXfer s.params len bs) r rest) hc hb
    (Nat.le_of_lt hl) ok
  refine ⟨stored, hs, hok, (State.accept_buffer_answered hr (fun u => ramSetXfer u.params len bs) hl h ho).trans ?_⟩
  change Xfer.effect (ramSetXfer s.params len bs) ok _ = _ at he
  dsimp only [State.occupy_params]
  rw [he, Xfer.data_write rfl]
  rfl

/-- Settles O23: the length decides whether a transfer is issued, and its reply which bytes stand in the RAM. -/
theorem ramSetFollowsItsRule : Obligations.RamSetFollowsItsRule := by
  intro s len bs hinv hr hb
  obtain ⟨hc, hm, -⟩ := hinv
  refine ⟨State.accept_buffer_over hr fun u => ramSetXfer u.params len bs, fun hl => ⟨?ok, ?fail, ?wait⟩⟩
  case ok =>
    intro r rest h ho
    obtain ⟨stored, -, hs, he⟩ := execRamSet_answered (ok := true) hc hr hb hl h ho
    rw [hs rfl] at he
    refine ⟨_, he, fun i hi => ?_, fun p hp => ?_, rfl⟩
    · have hread := Memory.read_writeBytes_inside bs hm (p := 0) (by simp [Config.ramCap]; omega) i (by omega)
      rw [Nat.zero_add] at hread
      rw [hread, List.getElem?_eq_getElem]
    · exact Memory.read_writeBytes_outside bs _ 0 (by omega)
  case fail =>
    intro r rest h ho
    obtain ⟨stored, hs, -, he⟩ := execRamSet_answered (ok := false) hc hr hb hl h ho
    exact ⟨_, he, fun p hp => Memory.read_writeBytes_outside stored _ 0 (by omega), rfl⟩
  case wait => exact State.accept_buffer_noReply hr (fun u => ramSetXfer u.params len bs) hl

/-! ### GET_TIME (R113) -/

/-- The data of GET_TIME's transfer are the seconds byte and the minutes byte. -/
theorem getTimeXfer_data {s : State} (hc : s.params.Ok) :
    (getTimeXfer s.params).data true s = [s.clock.sec, s.clock.min] := by
  have hread := s.clock.read_time hc s.draws
  rw [← zext16_toNat] at hread
  exact (Xfer.fetch_clock (x := getTimeXfer s.params) rfl rfl).trans hread

/-- GET_TIME, answered. -/
theorem execGetTime_answered {s : State} (hc : s.params.Ok) (hr : s.ready = true) {r : Reply} {rest : List Reply}
    {ok : Bool} (h : s.replies = r :: rest) (ho : r.outcome = if ok then .ok else .fail) :
    exec .getTime s = .next { s with
      time := if ok then TimeReg.ofBytes r.sec r.min else s.time
      tvalid := ok
      clock := { s.clock with sec := r.sec, min := r.min }
      replies := rest, draws := s.draws + 1
      issued := s.issued ++ [getTimeXfer s.params]
      returned := s.returned ++ [{ ok := ok, data := if ok then [r.sec, r.min] else [] }]
      responses := s.responses ++ [{ status := if ok then .ok else .transportErr, data := [] }] } := by
  obtain ⟨hb, hf⟩ := (State.ready_iff s).1 hr
  have hdata : (getTimeXfer s.params).data true (s.atAnswer (getTimeXfer s.params) r rest) = [r.sec, r.min] :=
    getTimeXfer_data (s := s.atAnswer _ r rest) hc
  refine (State.accept_issue_answered hr (fun u => getTimeXfer u.params) _ _ h ho).trans (congrArg Host.Outcome.next ?_)
  rw [State.answer_read rfl]
  unfold State.atAnswer at hdata ⊢
  cases ok with
  | true => apply State.ext <;> simp [finishGetTime, hdata, hb, hf]
  | false => apply State.ext <;> simp [finishGetTime, hb, hf]

/-- Settles O24: the digits are those BcdSplit takes of the two bytes read. -/
theorem getTimeFollowsItsRule : Obligations.GetTimeFollowsItsRule := by
  intro s hc hr
  refine ⟨?ok, ?fail, ?wait⟩
  case ok =>
    intro r rest h ho
    obtain ⟨hst, hso⟩ := bcdSplitTakesTheDigits r.sec
    obtain ⟨hmt, hmo⟩ := bcdSplitTakesTheDigits r.min
    exact ⟨_, execGetTime_answered (ok := true) hc hr h ho, hst, hso, hmt, hmo, rfl⟩
  case fail =>
    intro r rest h ho
    exact execGetTime_answered (ok := false) hc hr h ho
  case wait =>
    intro hn
    exact State.accept_issue_noReply hr hn (fun u => getTimeXfer u.params) _ _

/-! ### CLK_INIT (R110) -/

/-- The first transfer of CLK_INIT, answered: 56 bytes stand in the RAM, all zero after a success. -/
theorem clkInitRam_answer {s : State} (hinv : s.Inv) {ok : Bool} (r : Reply) (rest : List Reply) :
    ∃ ram : Memory, (ok = true → ∀ p, p < 56 → ram.read p = 0) ∧
      (s.occupy.handOver (clkInitRamXfer s.params)).answer (clkInitRamXfer s.params) r rest ok = { s with
        busy := true, inFlight := none
        clock := { ram := ram, sec := r.sec, min := r.min, counting := s.clock.counting }
        replies := rest, draws := s.draws + 1
        issued := s.issued ++ [clkInitRamXfer s.params]
        returned := s.returned ++ [{ ok := ok, data := [] }] } := by
  obtain ⟨hc, hm, -⟩ := hinv
  obtain ⟨stored, -, hok, he⟩ := ramWrite_effect (s := s.atAnswer (clkInitRamXfer s.params) r rest) hc
    (len := BitVec.ofNat 16 Config.ramCap) (bs := List.replicate Config.ramCap 0) (List.length_replicate ..)
    (Nat.le_refl 56) ok
  change Xfer.effect (clkInitRamXfer s.params) ok ((s.occupy.handOver _).receive r rest) = _ at he
  refine ⟨s.clock.ram.writeBytes 0 stored, fun h p hp => ?_, ?_⟩
  · rw [hok h]
    exact Memory.read_writeBytes_replicate hm 0 (Nat.le_refl _) p hp
  · rw [State.answer_eq, he, Xfer.data_write rfl]
    rfl

/-- The one byte 0x00 at SS_REG leaves everything but COUNTING, which it sets when it succeeds (R45, R96). -/
theorem clkInitStart_effect {s : State} (hc : s.params.Ok) (ok : Bool) :
    ∃ counting : Bool, (ok = true → counting = true) ∧
      (clkInitStartXfer s.params).effect ok s = { s with clock := { s.clock with counting := counting } } := by
  have hafter : (clkInitStartXfer s.params).clockAfter ok s =
      if ok then ClockDevice.write s.params s.draws s.clock s.params.ssReg.toNat [0]
      else ClockDevice.spoil s.params s.draws s.clock s.params.ssReg.toNat 1 := by
    simp [Xfer.clockAfter, Xfer.bytes, clkInitStartXfer, clockXfer, Config.initSsLen]
  rw [Xfer.effect_toClock rfl rfl, hafter]
  cases ok with
  | true => exact ⟨true, fun _ => rfl, by rw [if_pos rfl, ClockDevice.write_start _ hc]⟩
  | false => exact ⟨Config.freeFlag s.draws, by simp, by rw [if_neg (by simp), ClockDevice.spoil_start _ hc]⟩

/-- The second transfer of CLK_INIT, answered: COUNTING is true after a success, and the response tells of both. -/
theorem clkInitStart_answered {s : State} (hc : s.params.Ok) {firstOk ok : Bool} {r : Reply} {rest : List Reply}
    (h : s.replies = r :: rest) (ho : r.outcome = if ok then .ok else .fail) :
    ∃ counting : Bool, (ok = true → counting = true) ∧
      s.issue (clkInitStartXfer s.params) (.clkInitStart firstOk) (finishClkInitStart firstOk) = { s with
        busy := false, inFlight := none
        clock := { ram := s.clock.ram, sec := r.sec, min := r.min, counting := counting }
        replies := rest, draws := s.draws + 1
        issued := s.issued ++ [clkInitStartXfer s.params]
        returned := s.returned ++ [{ ok := ok, data := [] }]
        responses := s.responses ++ [{ status := if firstOk && ok then .ok else .transportErr, data := [] }] } := by
  obtain ⟨counting, hcnt, he⟩ :=
    clkInitStart_effect (s := (s.handOver (clkInitStartXfer s.params)).receive r rest) hc ok
  refine ⟨counting, hcnt, ?_⟩
  dsimp only [State.receive_params, State.handOver_params] at he
  rw [State.issue_answered _ _ _ h ho, State.answer_eq, he]
  cases firstOk <;> cases ok <;> rfl

/-- After the first transfer CLK_INIT goes on to the second, unless that failed and INIT_STOP_ON_FAIL holds. -/
theorem finishClkInitRam_continues {s : State} {firstOk : Bool} (h : firstOk = true ∨ s.params.initStopOnFail = false)
    (d : List Byte) :
    finishClkInitRam firstOk d s =
      s.issue (clkInitStartXfer s.params) (.clkInitStart firstOk) (finishClkInitStart firstOk) := by
  obtain rfl | h := h
  · rfl
  · simp [finishClkInitRam, h]

/-- CLK_INIT with its first transfer answered, in terms of what follows that answer. -/
theorem execClkInit_firstAnswered {s : State} (hr : s.ready = true) {ok : Bool} {r : Reply} {rest : List Reply}
    (h : s.replies = r :: rest) (ho : r.outcome = if ok then .ok else .fail) :
    exec .clkInit s = .next (finishClkInitRam ok []
      ((s.occupy.handOver (clkInitRamXfer s.params)).answer (clkInitRamXfer s.params) r rest ok)) := by
  refine (State.accept_issue_answered hr (fun u => clkInitRamXfer u.params) _ _ h ho).trans ?_
  rw [Xfer.data_write rfl]
  rfl

/-- CLK_INIT with both transfers issued and answered. -/
theorem execClkInit_bothAnswered {s : State} (hinv : s.Inv) (hr : s.ready = true) {ok₁ ok₂ : Bool} {r₁ r₂ : Reply}
    {rest : List Reply} (h : s.replies = r₁ :: r₂ :: rest) (ho₁ : r₁.outcome = if ok₁ then .ok else .fail)
    (ho₂ : r₂.outcome = if ok₂ then .ok else .fail) (hgo : ok₁ = true ∨ s.params.initStopOnFail = false) :
    ∃ (ram : Memory) (counting : Bool), (ok₁ = true → ∀ p, p < 56 → ram.read p = 0) ∧ (ok₂ = true → counting = true) ∧
      exec .clkInit s = .next { s with
        clock := { ram := ram, sec := r₂.sec, min := r₂.min, counting := counting }
        replies := rest, draws := s.draws + 2
        issued := s.issued ++ [clkInitRamXfer s.params, clkInitStartXfer s.params]
        returned := s.returned ++ [{ ok := ok₁, data := [] }, { ok := ok₂, data := [] }]
        responses := s.responses ++ [{ status := if ok₁ && ok₂ then .ok else .transportErr, data := [] }] } := by
  obtain ⟨hb, hf⟩ := (State.ready_iff s).1 hr
  obtain ⟨ram, hram, hfirst⟩ := clkInitRam_answer hinv r₁ (r₂ :: rest)
  obtain ⟨counting, hcnt, hsecond⟩ := clkInitStart_answered (firstOk := ok₁)
    (s := (s.occupy.handOver (clkInitRamXfer s.params)).answer (clkInitRamXfer s.params) r₁ (r₂ :: rest) ok₁)
    (by simpa using hinv.1) (State.answer_replies ..) ho₂
  refine ⟨ram, counting, hram, hcnt, ?_⟩
  rw [execClkInit_firstAnswered hr h ho₁, finishClkInitRam_continues (by simpa using hgo), hsecond, hfirst]
  simp [hb, hf]

/-- CLK_INIT with its second transfer issued and waiting. -/
theorem execClkInit_secondWaits {s : State} (hinv : s.Inv) (hr : s.ready = true) {ok : Bool} {r : Reply}
    {rest : List Reply} (h : s.replies = r :: rest) (ho : r.outcome = if ok then .ok else .fail)
    (hgo : ok = true ∨ s.params.initStopOnFail = false)
    (hn : rest = [] ∨ ∃ r₂ rest', rest = r₂ :: rest' ∧ r₂.outcome = .never) :
    ∃ ram : Memory, (ok = true → ∀ p, p < 56 → ram.read p = 0) ∧
      exec .clkInit s = .next { s with
        busy := true
        inFlight := some { xfer := clkInitStartXfer s.params, owner := .clkInitStart ok }
        clock := { ram := ram, sec := r.sec, min := r.min, counting := s.clock.counting }
        replies := rest, draws := s.draws + 1
        issued := s.issued ++ [clkInitRamXfer s.params, clkInitStartXfer s.params]
        returned := s.returned ++ [{ ok := ok, data := [] }] } := by
  obtain ⟨ram, hram, hfirst⟩ := clkInitRam_answer hinv r rest
  refine ⟨ram, hram, ?_⟩
  rw [execClkInit_firstAnswered hr h ho, finishClkInitRam_continues (by simpa using hgo), hfirst,
    State.issue_noReply _ _ _ hn]
  simp [State.handOver, State.hold]

/-- CLK_INIT stopped by the failure of its first transfer. -/
theorem execClkInit_stops {s : State} (hinv : s.Inv) (hr : s.ready = true) {r : Reply} {rest : List Reply}
    (h : s.replies = r :: rest) (ho : r.outcome = .fail) (hstop : s.params.initStopOnFail = true) :
    ∃ ram : Memory, exec .clkInit s = .next { s with
      clock := { ram := ram, sec := r.sec, min := r.min, counting := s.clock.counting }
      replies := rest, draws := s.draws + 1
      issued := s.issued ++ [clkInitRamXfer s.params]
      returned := s.returned ++ [{ ok := false, data := [] }]
      responses := s.responses ++ [{ status := .transportErr, data := [] }] } := by
  obtain ⟨hb, hf⟩ := (State.ready_iff s).1 hr
  obtain ⟨ram, -, hfirst⟩ := clkInitRam_answer hinv (ok := false) r rest
  refine ⟨ram, ?_⟩
  rw [execClkInit_firstAnswered (ok := false) hr h ho, hfirst]
  simp [finishClkInitRam, State.raise, State.complete, hstop, hb, hf]

/-- Settles O20, clause by clause from the outcomes of the two transfers. -/
theorem clkInitFollowsItsRule : Obligations.ClkInitFollowsItsRule := by
  intro s hinv hr
  refine ⟨?okOk, ?okFail, ?failOk, ?failFail, ?stop, ?firstWaits, ?okWaits, ?failWaits⟩
  case okOk =>
    intro r₁ r₂ rest h ho₁ ho₂
    obtain ⟨ram, counting, hram, hcnt, he⟩ :=
      execClkInit_bothAnswered (ok₁ := true) (ok₂ := true) hinv hr h ho₁ ho₂ (.inl rfl)
    rw [hcnt rfl] at he
    exact ⟨_, he, hram rfl, rfl⟩
  case okFail =>
    intro r₁ r₂ rest h ho₁ ho₂
    obtain ⟨ram, counting, hram, -, he⟩ :=
      execClkInit_bothAnswered (ok₁ := true) (ok₂ := false) hinv hr h ho₁ ho₂ (.inl rfl)
    exact ⟨_, he, hram rfl, rfl⟩
  case failOk =>
    intro r₁ r₂ rest h ho₁ ho₂ hgo
    obtain ⟨ram, counting, -, hcnt, he⟩ :=
      execClkInit_bothAnswered (ok₁ := false) (ok₂ := true) hinv hr h ho₁ ho₂ (.inr hgo)
    rw [hcnt rfl] at he
    exact ⟨_, he, rfl⟩
  case failFail =>
    intro r₁ r₂ rest h ho₁ ho₂ hgo
    obtain ⟨ram, counting, -, -, he⟩ :=
      execClkInit_bothAnswered (ok₁ := false) (ok₂ := false) hinv hr h ho₁ ho₂ (.inr hgo)
    exact ⟨_, he, rfl⟩
  case stop =>
    intro r₁ rest h ho hstop
    obtain ⟨ram, he⟩ := execClkInit_stops hinv hr h ho hstop
    exact ⟨_, he, rfl⟩
  case firstWaits =>
    intro hn
    exact State.accept_issue_noReply hr hn (fun u => clkInitRamXfer u.params) _ _
  case okWaits =>
    intro r₁ rest h ho hn
    obtain ⟨ram, hram, he⟩ := execClkInit_secondWaits (ok := true) hinv hr h ho (.inl rfl) hn
    exact ⟨_, he, hram rfl, rfl⟩
  case failWaits =>
    intro r₁ rest h ho hgo hn
    obtain ⟨ram, -, he⟩ := execClkInit_secondWaits (ok := false) hinv hr h ho (.inr hgo) hn
    exact ⟨_, he, rfl⟩

/-! ### What RAM_SET wrote RAM_GET reads back (R118) -/

/-- `t` has the parameters, the RAM and COUNTING of `s`. -/
structure State.KeepsClockStore (s t : State) : Prop where
  params : t.params = s.params
  ram : t.clock.ram = s.clock.ram
  counting : t.clock.counting = s.clock.counting

theorem State.KeepsClockStore.refl (s : State) : s.KeepsClockStore s := ⟨rfl, rfl, rfl⟩

theorem State.KeepsClockStore.trans {s t u : State} (h : s.KeepsClockStore t) (h' : t.KeepsClockStore u) :
    s.KeepsClockStore u :=
  ⟨h'.params.trans h.params, h'.ram.trans h.ram, h'.counting.trans h.counting⟩

/-- A transfer that is a read, or goes to another identity than the clock device's (R31, R97). -/
def Xfer.SparesClock (p : Params) (x : Xfer) : Prop := x.rnw = true ∨ x.dev ≠ p.clkDev

theorem Xfer.effect_clock_of_sparesClock {x : Xfer} {s : State} (hx : x.SparesClock s.params) (ok : Bool) :
    (x.effect ok s).clock = s.clock := by
  obtain hx | hx := hx <;> simp [hx]

theorem State.answer_keepsClockStore {s : State} {x : Xfer} (hx : x.SparesClock s.params) (r : Reply)
    (rest : List Reply) (ok : Bool) : s.KeepsClockStore (s.answer x r rest ok) := by
  have hclock : (s.answer x r rest ok).clock = (s.receive r rest).clock := by
    rw [State.answer_clock, Xfer.effect_clock_of_sparesClock (s := s.receive r rest) hx]
  exact ⟨State.answer_params .., by rw [hclock]; rfl, by rw [hclock]; rfl⟩

/-- Issuing such a transfer keeps the clock device's store, if what its owner does with the answer does. -/
theorem State.issue_keepsClockStore {s : State} {x : Xfer} (hx : x.SparesClock s.params) (o : Owner)
    {fin : Bool → List Byte → State → State} (hfin : ∀ ok d u, State.KeepsClockStore u (fin ok d u)) :
    s.KeepsClockStore (s.issue x o fin) := by
  refine State.await_keeps (P := s.KeepsClockStore) ⟨rfl, rfl, rfl⟩ fun r rest ok d _ => ?_
  have hissued : s.KeepsClockStore (s.handOver x) := ⟨rfl, rfl, rfl⟩
  exact (hissued.trans (State.answer_keepsClockStore (s := s.handOver x) hx r rest ok)).trans (hfin ok d _)

theorem finishBuffer_keepsClockStore (ok : Bool) (d : List Byte) (u : State) :
    u.KeepsClockStore (finishBuffer ok d u) := by
  cases ok <;> exact ⟨rfl, rfl, rfl⟩

theorem finishGetTime_keepsClockStore (ok : Bool) (d : List Byte) (u : State) :
    u.KeepsClockStore (finishGetTime ok d u) := by
  cases ok <;> exact ⟨rfl, rfl, rfl⟩

theorem State.accept_keepsClockStore {s t : State} {run : State → State} (h : s.accept run = .next t)
    (hrun : s.occupy.KeepsClockStore (run s.occupy)) : s.KeepsClockStore t := by
  cases h
  split
  · exact ⟨hrun.params, hrun.ram, hrun.counting⟩
  · exact .refl s

theorem State.buffer_keepsClockStore {s : State} (cap : Nat) (len : Length) {x : Xfer} (hx : x.SparesClock s.params) :
    s.KeepsClockStore (s.buffer cap len x) := by
  unfold State.buffer
  split
  · exact State.issue_keepsClockStore hx _ finishBuffer_keepsClockStore
  · exact ⟨rfl, rfl, rfl⟩

theorem State.bare_keepsClockStore {s t : State} {x : Xfer} (hx : x.SparesClock s.params) (h : s.bare x = .next t) :
    s.KeepsClockStore t := by
  cases h
  split
  · exact State.issue_keepsClockStore hx _ fun _ _ => .refl
  · exact .refl s

/-- The instructions R118 allows between keep the RAM, whatever their outcome and whether they are accepted. -/
theorem exec_keepsClockStore {s t : State} {i : Instr} (hc : s.params.Ok) (hi : i.SparesRam s.params)
    (h : exec i s = .next t) : s.KeepsClockStore t := by
  cases i with
  | clkInit => cases hi
  | ramSet len bs => cases hi
  | ramGet len => exact State.accept_keepsClockStore h (State.buffer_keepsClockStore _ _ (.inl rfl))
  | nvmGet off len => exact State.accept_keepsClockStore h (State.buffer_keepsClockStore _ _ (.inl rfl))
  | nvmSet off len bs => exact State.accept_keepsClockStore h (State.buffer_keepsClockStore _ _ (.inr hc.1.symm))
  | getTime =>
    exact State.accept_keepsClockStore h (State.issue_keepsClockStore (.inl rfl) _ finishGetTime_keepsClockStore)
  | xferW8 dev reg len bs => exact State.bare_keepsClockStore (x := xferW8Xfer dev reg len bs) (.inr hi) h
  | xferR8 dev reg len => exact State.bare_keepsClockStore (.inl rfl) h
  | xferW16 dev reg len bs => exact State.bare_keepsClockStore (x := xferW16Xfer dev reg len bs) (.inr hi) h
  | xferR16 dev reg len => exact State.bare_keepsClockStore (.inl rfl) h

theorem execAll_keepsClockStore {is : List Instr} {s t : State} (hc : s.params.Ok)
    (his : ∀ i ∈ is, i.SparesRam s.params) (h : execAll is s = some t) : s.KeepsClockStore t := by
  induction is generalizing s with
  | nil =>
    cases h
    exact .refl _
  | cons i is ih =>
    obtain ⟨hi, his⟩ := List.forall_mem_cons.1 his
    obtain ⟨u, hu⟩ := exec_isNext i s
    have hsu := exec_keepsClockStore hc hi hu
    rw [execAll, hu] at h
    exact hsu.trans (ih (by rwa [hsu.params]) (by rwa [hsu.params]) h)

/-- A RAM_SET that responds OK has stored its payload from RAM[0] up. -/
theorem execRamSet_responds_ok {s t : State} (hc : s.params.Ok) (hr : s.ready = true) {len : Length} {bs d : List Byte}
    (hb : bs.length = len.toNat) (h : exec (.ramSet len bs) s = .next t)
    (hd : t.responses = s.responses ++ [{ status := .ok, data := d }]) :
    len.toNat < 56 ∧ t.params = s.params ∧ t.clock.ram = s.clock.ram.writeBytes 0 bs := by
  obtain ⟨hl, hp, r, rest, hclock, -, -⟩ :=
    State.accept_buffer_responds_ok hr (fun u => ramSetXfer u.params len bs) h hd
  obtain ⟨stored, -, hok, he⟩ :=
    ramWrite_effect (s := s.atAnswer (ramSetXfer s.params len bs) r rest) hc hb (Nat.le_of_lt hl) true
  rw [hok rfl] at he
  exact ⟨hl, hp, (congrArg ClockDevice.ram hclock).trans (congrArg (fun u => u.clock.ram) he)⟩

/-- A RAM_GET that responds OK gives the bytes of the RAM from RAM[0] up. -/
theorem execRamGet_responds_ok {s t : State} (hr : s.ready = true) {len : Length} {d : List Byte}
    (h : exec (.ramGet len) s = .next t) (hd : t.responses = s.responses ++ [{ status := .ok, data := d }]) :
    d = s.clock.ram.readBytes 0 len.toNat := by
  obtain ⟨hl, -, r, rest, -, -, hdata⟩ := State.accept_buffer_responds_ok hr (fun u => ramGetXfer u.params len) h hd
  exact hdata.trans (ramGetXfer_data (s := s.atAnswer _ r rest) hl)

/-- Settles O30: what comes between keeps the RAM, so RAM_GET reads the bytes RAM_SET stored. -/
theorem ramRoundTrip : Obligations.RamRoundTrip := by
  intro s t u v len len' bs d between hinv hr hb hle hset htresp hspare hbetween hur hget hvresp
  obtain ⟨hc, hm, -⟩ := hinv
  obtain ⟨hl, hp, hstored⟩ := execRamSet_responds_ok hc hr hb hset htresp
  have hkept := execAll_keepsClockStore (by rwa [hp]) (by rwa [hp]) hbetween
  calc d = u.clock.ram.readBytes 0 len'.toNat := execRamGet_responds_ok hur hget hvresp
    _ = (s.clock.ram.writeBytes 0 bs).readBytes 0 len'.toNat := by rw [hkept.ram, hstored]
    _ = bs.take len'.toNat := Memory.readBytes_writeBytes bs hm (by simp only [Config.ramCap]; omega) (by omega)

end Sys2Proof.Machine
end

section
/-! The NVM commands (42_nvm.md): what each command's transfer reads and leaves, that OFFSET has no part in the bounds check,
and the round trip through the NVM. -/

namespace Sys2Proof.Machine

/-! ### NVM_GET (R130) -/

theorem nvmRead_length (m : Memory) (k a n : Nat) : (nvmRead m k a n).length = n := by
  unfold nvmRead
  split
  · exact Memory.readBytes_length m a n
  · exact freeBytes_length k n

/-- A read inside the range gives the bytes of the NVM (R44). -/
theorem nvmRead_inRange {a n : Nat} (h : a + n ≤ 4096) (m : Memory) (k : Nat) : nvmRead m k a n = m.readBytes a n :=
  if_pos h

/-- The data of an NVM_GET's transfer. -/
theorem nvmGetXfer_data (s : State) (off : Pointer16) (len : Length) :
    (nvmGetXfer s.params off len).data true s = nvmRead s.nvm s.draws off.toNat len.toNat :=
  Xfer.fetch_nvm (x := nvmGetXfer s.params off len) rfl rfl

/-- Settles O34: the length decides whether a transfer is issued, and its reply how the command ends. -/
theorem nvmGetFollowsItsRule : Obligations.NvmGetFollowsItsRule := by
  intro s off len _ hr
  refine ⟨State.accept_buffer_over hr fun u => nvmGetXfer u.params off len, fun hl => ⟨?ok, ?fail, ?wait⟩⟩
  case ok =>
    intro r rest h ho
    have hdata := nvmGetXfer_data (s.atAnswer (nvmGetXfer s.params off len) r rest) off len
    refine ⟨_, nvmRead_length s.nvm (s.draws + 1) off.toNat len.toNat, fun hin i hi => ?_, ?_⟩
    · rw [nvmRead_inRange hin, Memory.readBytes_getElem? _ _ _ _ hi]
    · simp only [State.atAnswer_params, State.atAnswer_nvm, State.atAnswer_draws] at hdata
      rw [← hdata]
      exact State.accept_buffer_read_answered (ok := true) (x := fun u => nvmGetXfer u.params off len) hr rfl hl h ho
  case fail =>
    intro r rest h ho
    exact State.accept_buffer_read_answered (ok := false) (x := fun u => nvmGetXfer u.params off len) hr rfl hl h ho
  case wait => exact State.accept_buffer_noReply hr (fun u => nvmGetXfer u.params off len) hl

/-! ### NVM_SET (R131) -/

/-- A write of no byte, or a safe one, leaves some `LEN` bytes from REG up, its payload when it succeeds (R98, R133). -/
theorem Xfer.nvmAfter_stored {x : Xfer} {s : State} (hw : x.w16 = true) (hp : x.payload.length = x.len.toNat)
    (hs : x.len.toNat = 0 ∨ Params.safeWrite s.params x.reg.toNat x.len.toNat = true) (ok : Bool) :
    ∃ stored : List Byte, stored.length = x.len.toNat ∧ (ok = true → stored = x.payload) ∧
      x.nvmAfter ok s = s.nvm.writeBytes x.reg.toNat stored := by
  by_cases h0 : x.len.toNat = 0
  · refine ⟨[], h0.symm, fun _ => ?_, Xfer.nvmAfter_zero h0 ok s⟩
    exact (List.eq_nil_of_length_eq_zero (hp.trans h0)).symm
  · rw [Xfer.nvmAfter_safe hw (Nat.pos_of_ne_zero h0) (hs.resolve_left h0), Xfer.bytes_eq hp]
    cases ok with
    | true => exact ⟨x.payload, hp, fun _ => rfl, rfl⟩
    | false => exact ⟨freeBytes s.draws x.len.toNat, freeBytes_length _ _, by simp, rfl⟩

/-- NVM_SET, answered: what its one transfer leaves in the NVM, and nothing else of the devices but the running counter. -/
theorem execNvmSet_answered {s : State} (hc : s.params.Ok) (hr : s.ready = true) (off : Pointer16) {len : Length}
    (bs : List Byte) (hl : len.toNat < 4096) {r : Reply} {rest : List Reply} {ok : Bool} (h : s.replies = r :: rest)
    (ho : r.outcome = if ok then .ok else .fail) :
    exec (.nvmSet off len bs) s = .next { s with
      clock := { s.clock with sec := r.sec, min := r.min }
      nvm := (nvmSetXfer s.params off len bs).nvmAfter ok (s.atAnswer (nvmSetXfer s.params off len bs) r rest)
      replies := rest, draws := s.draws + 1
      issued := s.issued ++ [nvmSetXfer s.params off len bs]
      returned := s.returned ++ [{ ok := ok, data := [] }]
      responses := s.responses ++ [{ status := if ok then .ok else .transportErr, data := [] }] } := by
  refine (State.accept_buffer_answered hr (fun u => nvmSetXfer u.params off len bs) hl h ho).trans ?_
  dsimp only [State.occupy_params]
  rw [Xfer.effect_toNvm (s := s.atAnswer _ r rest) hc rfl rfl, Xfer.data_write rfl]
  rfl

/-- A safe NVM_SET, answered: some `len` bytes stand from OFFSET up, those of the payload after a success (R131, R133). -/
theorem nvmSetXfer_nvmAfter {s : State} {off : Pointer16} {len : Length} {bs : List Byte} (hb : bs.length = len.toNat)
    (hs : Params.safeWrite s.params off.toNat len.toNat = true) (r : Reply) (rest : List Reply) (ok : Bool) :
    ∃ stored : List Byte, stored.length = len.toNat ∧ (ok = true → stored = bs) ∧
      (nvmSetXfer s.params off len bs).nvmAfter ok (s.atAnswer (nvmSetXfer s.params off len bs) r rest) =
        s.nvm.writeBytes off.toNat stored :=
  Xfer.nvmAfter_stored (x := nvmSetXfer s.params off len bs) (s := s.atAnswer _ r rest) rfl hb (.inr hs) ok

/-- Settles O35: the length decides whether a transfer is issued, and its reply which bytes stand in the NVM. -/
theorem nvmSetFollowsItsRule : Obligations.NvmSetFollowsItsRule := by
  intro s off len bs hinv hr hb
  obtain ⟨hc, -, hm, -⟩ := hinv
  refine ⟨State.accept_buffer_over hr fun u => nvmSetXfer u.params off len bs, fun hl => ⟨?ok, ?fail, ?wait⟩⟩
  case ok =>
    intro r rest h ho
    refine ⟨_, execNvmSet_answered (ok := true) hc hr off bs hl h ho, fun h0 => Xfer.nvmAfter_zero h0 _ _,
      fun _ hin hpage => ?_, rfl⟩
    have hsafe := (Params.safeWrite_iff s.params _ _).2 ⟨hin, hpage⟩
    obtain ⟨stored, -, hst, he⟩ := nvmSetXfer_nvmAfter hb hsafe r rest true
    dsimp only
    rw [he, hst rfl]
    refine ⟨fun i hi => ?_, fun p hp => Memory.read_writeBytes_outside bs _ _ (by omega)⟩
    rw [Memory.read_writeBytes_inside bs hm (by rw [hb]; exact hin) i (by omega), List.getElem?_eq_getElem]
  case fail =>
    intro r rest h ho
    refine ⟨_, execNvmSet_answered (ok := false) hc hr off bs hl h ho, fun h0 => Xfer.nvmAfter_zero h0 _ _,
      fun _ hin hpage => ?_, rfl⟩
    have hsafe := (Params.safeWrite_iff s.params _ _).2 ⟨hin, hpage⟩
    obtain ⟨stored, hst, -, he⟩ := nvmSetXfer_nvmAfter hb hsafe r rest false
    dsimp only
    rw [he]
    exact fun p hp => Memory.read_writeBytes_outside stored _ _ (by omega)
  case wait => exact State.accept_buffer_noReply hr (fun u => nvmSetXfer u.params off len bs) hl

/-! ### OFFSET has no part in the check (R132) -/

section offset

variable {s t t' : State} {cap : Nat} {len : Length}

/-- How a buffer command ends is decided by its length and the reply, not by its transfer (R94). -/
theorem State.accept_buffer_same_status (hr : s.ready = true) (x x' : State → Xfer)
    (h : s.accept (fun s => s.buffer cap len (x s)) = .next t)
    (h' : s.accept (fun s => s.buffer cap len (x' s)) = .next t') :
    t.responses.map (·.status) = t'.responses.map (·.status) ∧ t.busy = t'.busy := by
  obtain ⟨hl, rfl⟩ | ⟨hl, hn, rfl⟩ | ⟨hl, r, rest, ok, hrep, ho, rfl⟩ := State.accept_buffer_cases hr x h
  · rw [State.accept_buffer_over hr x' hl] at h'
    cases h'
    exact ⟨rfl, rfl⟩
  · rw [State.accept_buffer_noReply hr x' hl hn] at h'
    cases h'
    exact ⟨rfl, rfl⟩
  · rw [State.accept_buffer_answered hr x' hl hrep ho] at h'
    cases h'
    simp

/-- A buffer command whose length passes issues its transfer, whether or not it is answered (R94). -/
theorem State.accept_buffer_issued (hr : s.ready = true) (x : State → Xfer) (hl : len.toNat < cap)
    (h : s.accept (fun s => s.buffer cap len (x s)) = .next t) : t.issued = s.issued ++ [x s.occupy] := by
  obtain ⟨hl', -⟩ | ⟨-, -, rfl⟩ | ⟨-, _, _, _, -, -, rfl⟩ := State.accept_buffer_cases hr x h
  · omega
  · rfl
  · rfl

end offset

/-- Settles O36: two commands that differ in OFFSET differ only in the transfer they issue. -/
theorem offsetIsNotChecked : Obligations.OffsetIsNotChecked := by
  intro s t t' off off' len bs hr
  constructor
  · intro h h'
    obtain ⟨hstatus, hbusy⟩ := State.accept_buffer_same_status hr (fun u => nvmGetXfer u.params off len)
      (fun u => nvmGetXfer u.params off' len) h h'
    exact ⟨hstatus, hbusy, fun hl =>
      ⟨_, State.accept_buffer_issued hr (fun u => nvmGetXfer u.params off len) hl h, rfl, rfl⟩⟩
  · intro h h'
    obtain ⟨hstatus, hbusy⟩ := State.accept_buffer_same_status hr (fun u => nvmSetXfer u.params off len bs)
      (fun u => nvmSetXfer u.params off' len bs) h h'
    exact ⟨hstatus, hbusy, fun hl =>
      ⟨_, State.accept_buffer_issued hr (fun u => nvmSetXfer u.params off len bs) hl h, rfl, rfl⟩⟩

/-! ### What a safe write stored NVM_GET reads back (R134) -/

/-- `t` has the parameters of `s`, and the `n` NVM bytes from `a` up read as in `s`. -/
structure State.KeepsNvm (a n : Nat) (s t : State) : Prop where
  params : t.params = s.params
  read : ∀ p, a ≤ p → p < a + n → t.nvm.read p = s.nvm.read p

theorem State.KeepsNvm.trans {a n : Nat} {s t u : State} (h : s.KeepsNvm a n t) (h' : t.KeepsNvm a n u) :
    s.KeepsNvm a n u :=
  ⟨h'.params.trans h.params, fun p hp hp' => (h'.read p hp hp').trans (h.read p hp hp')⟩

theorem State.KeepsNvm.of_eq {a n : Nat} {s t : State} (hp : t.params = s.params) (hm : t.nvm = s.nvm) :
    s.KeepsNvm a n t :=
  ⟨hp, fun _ _ _ => by rw [hm]⟩

/-- A transfer that reads, goes to another identity than the NVM device's, moves no byte, or is a safe write that touches
none of the `n` bytes from `a` up. -/
def Xfer.SparesNvm (p : Params) (a n : Nat) (x : Xfer) : Prop :=
  x.rnw = true ∨ x.dev ≠ p.nvmDev ∨ x.len.toNat = 0 ∨ x.w16 = true ∧ SafeBeside p a n x.reg x.len x.payload

/-- The NVM after a transfer is as before, unless the transfer is a write to the NVM device (R33, R99). -/
theorem Xfer.effect_nvm_cases (x : Xfer) (ok : Bool) (s : State) :
    (x.effect ok s).nvm = s.nvm ∨
    (x.rnw = false ∧ x.dev = s.params.nvmDev ∧ (x.effect ok s).nvm = x.nvmAfter ok s) := by
  rw [Xfer.effect_nvm, Xfer.store_nvm]
  split
  · exact .inl rfl
  · split
    · next hr hd => exact .inr ⟨by simpa using hr, hd.2, rfl⟩
    · exact .inl rfl

theorem Xfer.read_effect_of_sparesNvm {x : Xfer} {s : State} {a n : Nat} (hx : x.SparesNvm s.params a n) (ok : Bool)
    {p : Nat} (hp : a ≤ p) (hp' : p < a + n) : (x.effect ok s).nvm.read p = s.nvm.read p := by
  obtain he | ⟨hr, hd, he⟩ := x.effect_nvm_cases ok s
  · rw [he]
  · rw [he]
    obtain hx | hx | h0 | ⟨hw, hb, h0 | ⟨hs, hout⟩⟩ := hx
    · simp [hr] at hx
    · exact absurd hd hx
    · rw [Xfer.nvmAfter_zero h0]
    · rw [Xfer.nvmAfter_zero h0]
    · obtain ⟨stored, hlen, -, hafter⟩ := Xfer.nvmAfter_stored hw hb (.inr hs) ok
      rw [hafter]
      exact Memory.read_writeBytes_outside stored _ _ (by omega)

/-- A command keeps the bytes when it does so in a block that can take it. -/
theorem State.accept_keepsNvm {a n : Nat} {s t : State} {run : State → State} (h : s.accept run = .next t)
    (hrun : s.ready = true → s.KeepsNvm a n t) : s.KeepsNvm a n t := by
  cases hr : s.ready with
  | true => exact hrun hr
  | false =>
    rw [State.accept_notReady hr] at h
    cases h
    exact .of_eq rfl rfl

theorem State.accept_buffer_keepsNvm {a n : Nat} {s t : State} {cap : Nat} {len : Length} (x : State → Xfer)
    (hx : len.toNat < cap → (x s.occupy).SparesNvm s.params a n)
    (h : s.accept (fun s => s.buffer cap len (x s)) = .next t) : s.KeepsNvm a n t := by
  refine State.accept_keepsNvm h fun hr => ?_
  obtain ⟨-, rfl⟩ | ⟨-, -, rfl⟩ | ⟨hl, r, rest, ok, -, -, rfl⟩ := State.accept_buffer_cases hr x h
  · exact .of_eq rfl rfl
  · exact .of_eq rfl rfl
  · exact ⟨rfl, fun p => Xfer.read_effect_of_sparesNvm (s := s.atAnswer _ r rest) (hx hl) ok⟩

theorem State.bare_keepsNvm {a n : Nat} {s t : State} {x : Xfer} (hx : x.SparesNvm s.params a n)
    (h : s.bare x = .next t) : s.KeepsNvm a n t := by
  obtain ⟨-, rfl⟩ | ⟨-, -, rfl⟩ | ⟨-, r, rest, ok, -, -, rfl⟩ := State.bare_cases x h
  · exact .of_eq rfl rfl
  · exact .of_eq rfl rfl
  · exact ⟨rfl, fun p => Xfer.read_effect_of_sparesNvm (s := (s.handOver x).receive r rest) hx ok⟩

theorem execClkInit_keepsNvm {a n : Nat} {s t : State} (h : execClkInit s = .next t) : s.KeepsNvm a n t := by
  refine State.accept_keepsNvm h fun hr => ?_
  obtain ⟨-, rfl⟩ | ⟨_, _, _, -, rfl⟩ | ⟨_, _, _, _, rfl⟩ | ⟨_, _, _, _, _, rfl⟩ := execClkInit_cases hr h
  all_goals exact .of_eq rfl rfl

theorem execGetTime_keepsNvm {a n : Nat} {s t : State} (h : execGetTime s = .next t) : s.KeepsNvm a n t := by
  refine State.accept_keepsNvm h fun hr => ?_
  obtain ⟨-, rfl⟩ | ⟨_, _, _, -, -, -, rfl⟩ | ⟨_, _, -, -, rfl⟩ := execGetTime_cases hr h
  all_goals exact .of_eq rfl rfl

/-- The instructions R134 allows between keep the bytes, whatever their outcome and whether they are accepted. -/
theorem exec_keepsNvm {a n : Nat} {s t : State} {i : Instr} (hi : i.SparesNvm s.params a n) (hc : s.params.Ok)
    (h : exec i s = .next t) : s.KeepsNvm a n t := by
  cases i with
  | clkInit => exact execClkInit_keepsNvm h
  | getTime => exact execGetTime_keepsNvm h
  | ramGet len =>
    exact State.accept_buffer_keepsNvm (fun u => ramGetXfer u.params len) (fun _ => .inl rfl) h
  | ramSet len bs =>
    exact State.accept_buffer_keepsNvm (fun u => ramSetXfer u.params len bs) (fun _ => .inr (.inl hc.1)) h
  | nvmGet off len =>
    exact State.accept_buffer_keepsNvm (fun u => nvmGetXfer u.params off len) (fun _ => .inl rfl) h
  | nvmSet off len bs =>
    refine State.accept_buffer_keepsNvm (fun u => nvmSetXfer u.params off len bs) (fun hl => ?_) h
    exact .inr (.inr (.inr ⟨rfl, hi.resolve_left (Nat.not_le_of_lt hl)⟩))
  | xferW8 dev reg len bs =>
    exact State.bare_keepsNvm (x := xferW8Xfer dev reg len bs) (.inr (hi.imp_right .inl)) h
  | xferR8 dev reg len => exact State.bare_keepsNvm (.inl rfl) h
  | xferW16 dev reg len bs =>
    exact State.bare_keepsNvm (x := xferW16Xfer dev reg len bs) (.inr (hi.imp_right fun hb => .inr ⟨rfl, hb⟩)) h
  | xferR16 dev reg len => exact State.bare_keepsNvm (.inl rfl) h

/-- A property that each instruction of a list keeps holds after the list. -/
theorem execAll_keeps {P : State → Prop} {is : List Instr} {s t : State}
    (his : ∀ i ∈ is, ∀ u v, P u → exec i u = .next v → P v) (hs : P s) (h : execAll is s = some t) : P t := by
  induction is generalizing s with
  | nil =>
    cases h
    exact hs
  | cons i is ih =>
    obtain ⟨hi, his⟩ := List.forall_mem_cons.1 his
    obtain ⟨u, hu⟩ := exec_isNext i s
    rw [execAll, hu] at h
    exact ih his (hi s u hs hu) h

theorem execAll_keepsNvm {a n : Nat} {is : List Instr} {s t : State} (hc : s.params.Ok)
    (his : ∀ i ∈ is, Instr.SparesNvm s.params a n i) (h : execAll is s = some t) : s.KeepsNvm a n t := by
  refine execAll_keeps (P := s.KeepsNvm a n) (fun i hi u v hsu huv => ?_) (.of_eq rfl rfl) h
  exact hsu.trans (exec_keepsNvm (by rw [hsu.params]; exact his i hi) (by rwa [hsu.params]) huv)

/-- A safe write to the NVM device that succeeds stores its payload from REG up. -/
theorem Xfer.effect_safeNvm {x : Xfer} {s : State} (hc : s.params.Ok) (hr : x.rnw = false)
    (hd : x.dev = s.params.nvmDev) (hw : x.w16 = true) (hp : x.payload.length = x.len.toNat)
    (hs : Params.safeWrite s.params x.reg.toNat x.len.toNat = true) :
    (x.effect true s).nvm = s.nvm.writeBytes x.reg.toNat x.payload := by
  obtain ⟨stored, -, hok, he⟩ := Xfer.nvmAfter_stored hw hp (.inr hs) true
  rw [Xfer.effect_toNvm hc hr hd, he, hok rfl]

/-- A safe NVM_SET that responded OK, or a safe XFER_W16 that succeeded, has stored its bytes from OFFSET up. -/
theorem nvm_of_storedNvm {s t : State} {w : Instr} {off : Pointer16} {len : Length} {bs : List Byte}
    (hc : s.params.Ok) (hr : s.ready = true) (hb : bs.length = len.toNat)
    (hs : Params.safeWrite s.params off.toNat len.toNat = true) (h : exec w s = .next t)
    (hw : w.StoredNvm s t off len bs) : t.params = s.params ∧ t.nvm = s.nvm.writeBytes off.toNat bs := by
  obtain ⟨rfl, hresp⟩ | ⟨rfl, hret⟩ := hw
  · obtain ⟨-, hp, r, rest, -, hnvm, -⟩ :=
      State.accept_buffer_responds_ok hr (fun u => nvmSetXfer u.params off len bs) h hresp
    exact ⟨hp, hnvm.trans (Xfer.effect_safeNvm (s := s.atAnswer _ r rest) hc rfl rfl rfl hb hs)⟩
  · obtain ⟨hf, -⟩ | ⟨-, -, rfl⟩ | ⟨-, r, rest, ok, -, -, rfl⟩ :=
      State.bare_cases (xferW16Xfer s.params.nvmDev off len bs) h
    · exact absurd ((State.ready_iff s).1 hr).2 hf
    · simp at hret
    · obtain ⟨rfl, -⟩ : ok = true ∧ _ := by simpa using hret
      exact ⟨rfl, Xfer.effect_safeNvm (x := xferW16Xfer s.params.nvmDev off len bs)
        (s := (s.handOver _).receive r rest) hc rfl rfl rfl hb hs⟩

/-- An NVM_GET inside the range that responds OK gives the bytes of the NVM from OFFSET up. -/
theorem execNvmGet_responds_ok {s t : State} (hr : s.ready = true) {off : Pointer16} {len : Length} {d : List Byte}
    (hin : off.toNat + len.toNat ≤ 4096) (h : exec (.nvmGet off len) s = .next t)
    (hd : t.responses = s.responses ++ [{ status := .ok, data := d }]) :
    d = s.nvm.readBytes off.toNat len.toNat := by
  obtain ⟨-, -, r, rest, -, -, hdata⟩ :=
    State.accept_buffer_responds_ok hr (fun u => nvmGetXfer u.params off len) h hd
  exact (hdata.trans (nvmGetXfer_data (s.atAnswer _ r rest) off len)).trans (nvmRead_inRange hin _ _)

/-- Settles O37: what comes between keeps the byte, so NVM_GET reads the one the safe write stored. -/
theorem nvmRoundTrip : Obligations.NvmRoundTrip := by
  intro s t u v w off off' len len' bs d between i hinv hr hb hs hin hi hlo hhi hwrite hstored hspare hbetween hur
    hget hvresp
  obtain ⟨hc, -, hm, -⟩ := hinv
  obtain ⟨hp, hnvm⟩ := nvm_of_storedNvm hc hr hb hs hwrite hstored
  have hkept := execAll_keepsNvm (by rwa [hp]) (by rwa [hp]) hbetween
  have hrange : off.toNat + bs.length ≤ Config.nvmCap := by
    rw [hb]
    exact ((Params.safeWrite_iff _ _ _).1 hs).1
  have hj : off'.toNat + i - off.toNat < bs.length := by omega
  have hread : u.nvm.read (off'.toNat + i) = bs[off'.toNat + i - off.toNat] := by
    rw [hkept.read _ (Nat.le_refl _) (Nat.lt_succ_self _), hnvm, ← Memory.read_writeBytes_inside bs hm hrange _ hj]
    congr 1
    omega
  refine ⟨_, List.getElem?_eq_getElem hj, ?_⟩
  rw [execNvmGet_responds_ok hur hin hget hvresp, Memory.readBytes_getElem? _ _ _ _ hi, hread]

end Sys2Proof.Machine
end

section
/-! The responses and the two errors (60_exceptions.md): how an accepted command ends (R140), when that is BOUNDS_ERR
(R141), and all that a command which ends in an error leaves changed (R146). -/

namespace Sys2Proof.Machine

/-! ### How an accepted command ends (R140) -/

/-- What an accepted command does in the block, `tooLong` saying that its length does not pass (R140, R141): it is
rejected and nothing but the response is new; or it waits for its transfer; or it ends with one response that is no
BOUNDS_ERR. -/
inductive State.CommandEnds (tooLong : Prop) (s t : State) : Prop
  | rejected (ho : tooLong) (ht : t = { s with responses := s.responses ++ [{ status := .boundsErr, data := [] }] })
  | waits (ho : ¬ tooLong) (hb : t.busy = true) (hr : t.responses = s.responses)
      (hf : ∃ fl, t.inFlight = some fl ∧ fl.owner ≠ .bare)
  | responds (ho : ¬ tooLong) (hb : t.busy = false) (hf : t.inFlight = none) (resp : Response)
      (hs : resp.status ≠ .boundsErr) (hr : t.responses = s.responses ++ [resp])

section accepted

variable {s t : State}

theorem State.accept_buffer_ends (hr : s.ready = true) {cap : Nat} {len : Length} (x : State → Xfer)
    (h : s.accept (fun s => s.buffer cap len (x s)) = .next t) : s.CommandEnds (cap ≤ len.toNat) t := by
  obtain ⟨hb, hf⟩ := (State.ready_iff s).1 hr
  obtain ⟨hl, rfl⟩ | ⟨hl, -, rfl⟩ | ⟨hl, r, rest, ok, -, -, rfl⟩ := State.accept_buffer_cases hr x h
  · exact .rejected hl rfl
  · exact .waits (Nat.not_le_of_lt hl) rfl rfl ⟨_, rfl, by simp⟩
  · exact .responds (Nat.not_le_of_lt hl) hb hf _ (by cases ok <;> simp) rfl

theorem execGetTime_ends (hr : s.ready = true) (h : execGetTime s = .next t) : s.CommandEnds False t := by
  obtain ⟨hb, hf⟩ := (State.ready_iff s).1 hr
  obtain ⟨-, rfl⟩ | ⟨_, _, _, -, -, -, rfl⟩ | ⟨_, _, -, -, rfl⟩ := execGetTime_cases hr h
  · exact .waits id rfl rfl ⟨_, rfl, by simp⟩
  · exact .responds id hb hf _ (by simp) rfl
  · exact .responds id hb hf _ (by simp) rfl

theorem execClkInit_ends (hr : s.ready = true) (h : execClkInit s = .next t) : s.CommandEnds False t := by
  obtain ⟨hb, hf⟩ := (State.ready_iff s).1 hr
  obtain ⟨-, rfl⟩ | ⟨_, _, _, -, rfl⟩ | ⟨_, _, _, _, rfl⟩ | ⟨_, _, _, ok, ok', rfl⟩ := execClkInit_cases hr h
  · exact .waits id rfl rfl ⟨_, rfl, by simp⟩
  · exact .responds id hb hf _ (by simp) rfl
  · exact .waits id rfl rfl ⟨_, rfl, by simp⟩
  · exact .responds id hb hf _ (by dsimp only; split <;> simp) rfl

theorem exec_command_ends {i : Instr} (hp : i.port = .command) (hr : s.ready = true) (h : exec i s = .next t) :
    s.CommandEnds i.OverLimit t := by
  cases i with
  | clkInit => exact execClkInit_ends hr h
  | ramGet len => exact State.accept_buffer_ends hr (fun u => ramGetXfer u.params len) h
  | ramSet len bs => exact State.accept_buffer_ends hr (fun u => ramSetXfer u.params len bs) h
  | getTime => exact execGetTime_ends hr h
  | nvmGet off len => exact State.accept_buffer_ends hr (fun u => nvmGetXfer u.params off len) h
  | nvmSet off len bs => exact State.accept_buffer_ends hr (fun u => nvmSetXfer u.params off len bs) h
  | xferW8 dev reg len bs => cases hp
  | xferR8 dev reg len => cases hp
  | xferW16 dev reg len bs => cases hp
  | xferR16 dev reg len => cases hp

end accepted

/-- Settles O38: only the rejection responds BOUNDS_ERR, and its next state is known in full. -/
theorem boundsErrorExactlyWhenOverLimit : Obligations.BoundsErrorExactlyWhenOverLimit := by
  intro s t i hp hr h
  cases exec_command_ends hp hr h with
  | rejected ho ht => exact ⟨iff_of_true (by rw [ht]) ho, fun _ => ht⟩
  | waits ho _ hresp _ => exact ⟨iff_of_false (by simp [hresp]) ho, (absurd · ho)⟩
  | responds ho _ _ resp hs hresp =>
    refine ⟨iff_of_false (fun hb => hs ?_) ho, (absurd · ho)⟩
    rw [List.singleton_inj.1 (List.append_cancel_left (hresp.symm.trans hb))]

/-- Settles O39: a rejection leaves the block as ready as it was. -/
theorem commandRespondsOnceOrWaits : Obligations.CommandRespondsOnceOrWaits := by
  intro s t i hp hr h
  cases exec_command_ends hp hr h with
  | rejected _ ht =>
    obtain ⟨hb, hf⟩ := (State.ready_iff s).1 hr
    subst ht
    exact .inl ⟨hb, hf, _, rfl⟩
  | waits _ hb hresp hf => exact .inr ⟨hb, hresp, hf⟩
  | responds _ hb hf resp _ hresp => exact .inl ⟨hb, hf, resp, hresp⟩

/-! ### What an error changes (R146) -/

theorem Memory.sameOutside_refl (m : Memory) (a n : Nat) : Memory.SameOutside m m a n := fun _ _ => rfl

theorem Memory.sameOutside_writeBytes (m : Memory) (a : Nat) (bs : List Byte) :
    Memory.SameOutside m (m.writeBytes a bs) a bs.length := fun _ => Memory.read_writeBytes_outside bs m a

/-- `t` is at rest, with the TIME and TVALID of `s`. -/
structure State.RestsWithTime (s t : State) : Prop where
  busy : t.busy = false
  time : t.time = s.time
  tvalid : t.tvalid = s.tvalid

theorem State.RestsWithTime.tvalid_of_ne_getTime {s t : State} (h : s.RestsWithTime t) {i : Instr} (hi : i ≠ .getTime) :
    t.tvalid = if i = .getTime then false else s.tvalid := by
  rw [h.tvalid, if_neg hi]

section errors

variable {s t : State} {resp : Response} {len : Length}

/-- A buffer command that ends in an error was rejected, with nothing but the response new, or its transfer failed. -/
theorem State.accept_buffer_error (hr : s.ready = true) {cap : Nat} (x : State → Xfer)
    (h : s.accept (fun s => s.buffer cap len (x s)) = .next t) (hresp : t.responses = s.responses ++ [resp])
    (herr : resp.status ≠ .ok) :
    s.RestsWithTime t ∧
    (t = { s with responses := s.responses ++ [resp] } ∨
      resp.status ≠ .boundsErr ∧ len.toNat < cap ∧ ∃ r rest, s.replies = r :: rest ∧ r.outcome = .fail) := by
  obtain ⟨hb, -⟩ := (State.ready_iff s).1 hr
  obtain ⟨-, rfl⟩ | ⟨-, -, rfl⟩ | ⟨hl, r, rest, ok, hrep, ho, rfl⟩ := State.accept_buffer_cases hr x h
  · exact ⟨⟨hb, rfl, rfl⟩, .inl (by rw [← hresp])⟩
  · simp at hresp
  · refine ⟨⟨hb, rfl, rfl⟩, .inr ?_⟩
    obtain rfl := List.singleton_inj.1 (List.append_cancel_left hresp)
    cases ok with
    | true => exact absurd rfl herr
    | false => exact ⟨by simp, hl, r, rest, hrep, ho⟩

/-- A buffer command that reads changes no byte of the devices when it ends in an error. -/
theorem State.accept_buffer_read_error (hr : s.ready = true) {cap : Nat} (x : State → Xfer)
    (hx : (x s.occupy).rnw = true) (h : s.accept (fun s => s.buffer cap len (x s)) = .next t)
    (hresp : t.responses = s.responses ++ [resp]) (herr : resp.status ≠ .ok) :
    s.RestsWithTime t ∧ s.KeepsClockStore t ∧ t.nvm = s.nvm := by
  obtain ⟨htime, rfl | ⟨-, hl, r, rest, hrep, ho⟩⟩ := State.accept_buffer_error hr x h hresp herr
  · exact ⟨htime, ⟨rfl, rfl, rfl⟩, rfl⟩
  · rw [State.accept_buffer_read_answered (ok := false) hr hx hl hrep ho] at h
    cases h
    exact ⟨htime, ⟨rfl, rfl, rfl⟩, rfl⟩

/-- A RAM_SET that ends in an error changes at most the `len` bytes it addressed, and none when it was rejected. -/
theorem execRamSet_error (hc : s.params.Ok) (hr : s.ready = true) {bs : List Byte} (hb : bs.length = len.toNat)
    (h : exec (.ramSet len bs) s = .next t) (hresp : t.responses = s.responses ++ [resp]) (herr : resp.status ≠ .ok) :
    s.RestsWithTime t ∧ t.clock.counting = s.clock.counting ∧ t.nvm = s.nvm ∧
    (resp.status = .boundsErr → t.clock.ram = s.clock.ram) ∧
    Memory.SameOutside s.clock.ram t.clock.ram 0 len.toNat := by
  obtain ⟨htime, rfl | ⟨hs, hl, r, rest, hrep, ho⟩⟩ :=
    State.accept_buffer_error hr (fun u => ramSetXfer u.params len bs) h hresp herr
  · exact ⟨htime, rfl, rfl, fun _ => rfl, Memory.sameOutside_refl _ _ _⟩
  · obtain ⟨stored, hlen, -, he⟩ := execRamSet_answered (ok := false) hc hr hb hl hrep ho
    rw [he] at h
    cases h
    refine ⟨htime, rfl, rfl, fun hbounds => absurd hbounds hs, ?_⟩
    rw [← hlen]
    exact Memory.sameOutside_writeBytes _ _ _

/-- An NVM_SET that ends in an error changes at most the `len` bytes it addressed if it was safe, and none when it was
rejected or addressed none. -/
theorem execNvmSet_error (hc : s.params.Ok) (hr : s.ready = true) {off : Pointer16} {bs : List Byte}
    (hb : bs.length = len.toNat) (h : exec (.nvmSet off len bs) s = .next t)
    (hresp : t.responses = s.responses ++ [resp]) (herr : resp.status ≠ .ok) :
    s.RestsWithTime t ∧ s.KeepsClockStore t ∧
    (resp.status = .boundsErr ∨ len.toNat = 0 → t.nvm = s.nvm) ∧
    (Params.safeWrite s.params off.toNat len.toNat = true → Memory.SameOutside s.nvm t.nvm off.toNat len.toNat) := by
  obtain ⟨htime, rfl | ⟨hs, hl, r, rest, hrep, ho⟩⟩ :=
    State.accept_buffer_error hr (fun u => nvmSetXfer u.params off len bs) h hresp herr
  · exact ⟨htime, ⟨rfl, rfl, rfl⟩, fun _ => rfl, fun _ => Memory.sameOutside_refl _ _ _⟩
  · rw [execNvmSet_answered (ok := false) hc hr off bs hl hrep ho] at h
    cases h
    refine ⟨htime, ⟨rfl, rfl, rfl⟩, fun hnone => Xfer.nvmAfter_zero (hnone.resolve_left hs) _ _, fun hsafe => ?_⟩
    obtain ⟨stored, hlen, -, he⟩ := nvmSetXfer_nvmAfter hb hsafe r rest false
    dsimp only
    rw [he, ← hlen]
    exact Memory.sameOutside_writeBytes _ _ _

/-- A GET_TIME that ends in an error clears TVALID, and changes nothing else but the running counter. -/
theorem execGetTime_error (hr : s.ready = true) (h : exec .getTime s = .next t)
    (hresp : t.responses = s.responses ++ [resp]) (herr : resp.status ≠ .ok) :
    t.busy = false ∧ t.time = s.time ∧ t.tvalid = false ∧ s.KeepsClockStore t ∧ t.nvm = s.nvm := by
  obtain ⟨hb, -⟩ := (State.ready_iff s).1 hr
  obtain ⟨-, rfl⟩ | ⟨_, _, _, -, -, -, rfl⟩ | ⟨_, _, -, -, rfl⟩ := execGetTime_cases hr h
  · simp at hresp
  · obtain rfl := List.singleton_inj.1 (List.append_cancel_left hresp)
    exact absurd rfl herr
  · exact ⟨hb, rfl, rfl, ⟨rfl, rfl, rfl⟩, rfl⟩

/-- A CLK_INIT that responds, with whatever status, leaves TIME, TVALID and the NVM. -/
theorem execClkInit_responds (hr : s.ready = true) (h : exec .clkInit s = .next t)
    (hresp : t.responses = s.responses ++ [resp]) : s.RestsWithTime t ∧ t.nvm = s.nvm := by
  obtain ⟨hb, -⟩ := (State.ready_iff s).1 hr
  obtain ⟨-, rfl⟩ | ⟨_, _, _, -, rfl⟩ | ⟨_, _, _, _, rfl⟩ | ⟨_, _, _, _, _, rfl⟩ := execClkInit_cases hr h
  · simp at hresp
  · exact ⟨⟨hb, rfl, rfl⟩, rfl⟩
  · simp at hresp
  · exact ⟨⟨hb, rfl, rfl⟩, rfl⟩

end errors

/-- Settles O41, command by command. -/
theorem errorsChangeNothingElse : Obligations.ErrorsChangeNothingElse := by
  intro s t i resp hinv hp hwf hr h hresp herr
  obtain ⟨hc, -⟩ := hinv
  cases i with
  | clkInit =>
    obtain ⟨hrest, hnvm⟩ := execClkInit_responds hr h hresp
    exact ⟨hrest.busy, hrest.time, hrest.tvalid_of_ne_getTime (by simp), fun hne => absurd rfl hne, hnvm⟩
  | ramGet len =>
    obtain ⟨hrest, hclock, hnvm⟩ :=
      State.accept_buffer_read_error hr (fun u => ramGetXfer u.params len) rfl h hresp herr
    exact ⟨hrest.busy, hrest.time, hrest.tvalid_of_ne_getTime (by simp), fun _ => hclock.counting, hclock.ram, hnvm⟩
  | ramSet len bs =>
    obtain ⟨hrest, hcounting, hnvm, hrejected, hram⟩ := execRamSet_error hc hr (beq_iff_eq.1 hwf) h hresp herr
    refine ⟨hrest.busy, hrest.time, hrest.tvalid_of_ne_getTime (by simp), fun _ => hcounting, hnvm, ?_⟩
    split
    · next hs => exact hrejected hs
    · exact hram
  | getTime =>
    obtain ⟨hbusy, htime, htvalid, hclock, hnvm⟩ := execGetTime_error hr h hresp herr
    exact ⟨hbusy, htime, htvalid.trans (if_pos rfl).symm, fun _ => hclock.counting, hclock.ram, hnvm⟩
  | nvmGet off len =>
    obtain ⟨hrest, hclock, hnvm⟩ :=
      State.accept_buffer_read_error hr (fun u => nvmGetXfer u.params off len) rfl h hresp herr
    exact ⟨hrest.busy, hrest.time, hrest.tvalid_of_ne_getTime (by simp), fun _ => hclock.counting, hclock.ram, hnvm⟩
  | nvmSet off len bs =>
    obtain ⟨hrest, hclock, hnone, hsafe⟩ := execNvmSet_error hc hr (beq_iff_eq.1 hwf) h hresp herr
    refine ⟨hrest.busy, hrest.time, hrest.tvalid_of_ne_getTime (by simp), fun _ => hclock.counting, hclock.ram, ?_⟩
    split
    · next hs => exact hnone hs
    · exact hsafe
  | xferW8 dev reg len bs => cases hp
  | xferR8 dev reg len => cases hp
  | xferW16 dev reg len bs => cases hp
  | xferR16 dev reg len => cases hp

end Sys2Proof.Machine
end

section
/-! The shapes of an instruction's meaning, and what every instruction and every step keeps: the constants of the block, what
belongs to the host, and the invariant of the machine. -/

namespace Sys2Proof.Machine

/-! ### The shapes of a meaning -/

/-- The capacity, the length and the transfer of a buffer command (R90, R94); none for any other instruction. -/
def bufferOf : Instr → Option (Nat × Length × (Params → Xfer))
  | .ramGet len => some (Config.ramCap, len, fun p => ramGetXfer p len)
  | .ramSet len bs => some (Config.ramCap, len, fun p => ramSetXfer p len bs)
  | .nvmGet off len => some (Config.nvmCap, len, fun p => nvmGetXfer p off len)
  | .nvmSet off len bs => some (Config.nvmCap, len, fun p => nvmSetXfer p off len bs)
  | .clkInit | .getTime => none
  | .xferW8 _ _ _ _ | .xferR8 _ _ _ | .xferW16 _ _ _ _ | .xferR16 _ _ _ => none

/-- Every instruction is CLK_INIT, GET_TIME, a buffer command, or a transfer run by itself. -/
inductive InstrShape : Instr → Prop
  | clkInit : InstrShape .clkInit
  | getTime : InstrShape .getTime
  | buffer {i : Instr} {cap : Nat} {len : Length} {x : Params → Xfer} (hi : bufferOf i = some (cap, len, x)) : InstrShape i
  | transfer {i : Instr} {x : Xfer} (hi : transferOf i = some x) : InstrShape i

theorem instrShape (i : Instr) : InstrShape i := by
  cases i with
  | clkInit => exact .clkInit
  | getTime => exact .getTime
  | ramGet _ => exact .buffer rfl
  | ramSet _ _ => exact .buffer rfl
  | nvmGet _ _ => exact .buffer rfl
  | nvmSet _ _ _ => exact .buffer rfl
  | xferW8 _ _ _ _ => exact .transfer rfl
  | xferR8 _ _ _ => exact .transfer rfl
  | xferW16 _ _ _ _ => exact .transfer rfl
  | xferR16 _ _ _ => exact .transfer rfl

/-- A buffer command is the skeleton of R94. -/
theorem exec_of_bufferOf {i : Instr} {cap : Nat} {len : Length} {x : Params → Xfer} (hi : bufferOf i = some (cap, len, x))
    (s : State) : exec i s = s.accept fun u => u.buffer cap len (x u.params) := by
  cases i <;> cases hi <;> rfl

/-- An XFER instruction is its transfer, run by itself. -/
theorem exec_of_transferOf {i : Instr} {x : Xfer} (hi : transferOf i = some x) (s : State) : exec i s = s.bare x := by
  cases i <;> cases hi <;> rfl

theorem transferOf_port {i : Instr} {x : Xfer} (hi : transferOf i = some x) : i.port = .transfer := by
  cases i <;> cases hi <;> rfl

theorem transferOf_of_port {i : Instr} (hi : i.port = .transfer) : ∃ x, transferOf i = some x := by
  cases i <;> cases hi <;> exact ⟨_, rfl⟩

theorem bufferOf_owns {i : Instr} {cap : Nat} {len : Length} {x : Params → Xfer} (hi : bufferOf i = some (cap, len, x))
    (hl : len.toNat < cap) (p : Params) : Owner.buffer.Owns p (x p) := by
  cases i <;> cases hi
  case ramGet => exact .inl ⟨_, hl, rfl⟩
  case ramSet => exact .inr (.inl ⟨_, _, hl, rfl⟩)
  case nvmGet => exact .inr (.inr (.inl ⟨_, _, hl, rfl⟩))
  case nvmSet => exact .inr (.inr (.inr ⟨_, _, _, hl, rfl⟩))

/-- What an accepted command and a command that is not accepted both keep. -/
theorem State.accept_keeps {P : State → Prop} {s t : State} {run : State → State} (h : s.accept run = .next t)
    (hs : P s) (hrun : s.ready = true → P t) : P t := by
  cases hr : s.ready with
  | true => exact hrun hr
  | false =>
    rw [State.accept_notReady hr] at h
    cases h
    exact hs

/-! ### What belongs to the host, and the constants (R27) -/

/-- `t` has the constants of `s`, and the host, its streams and the reset input as they are in `s`. -/
structure State.SameHost (s t : State) : Prop where
  params : t.params = s.params
  host : t.host = s.host
  powerOn : t.powerOn = s.powerOn
  commands : t.commands = s.commands
  descriptors : t.descriptors = s.descriptors

theorem State.SameHost.refl (s : State) : s.SameHost s := ⟨rfl, rfl, rfl, rfl, rfl⟩

theorem State.SameHost.trans {s t u : State} (h : s.SameHost t) (h' : t.SameHost u) : s.SameHost u :=
  ⟨h'.params.trans h.params, h'.host.trans h.host, h'.powerOn.trans h.powerOn, h'.commands.trans h.commands,
    h'.descriptors.trans h.descriptors⟩

theorem State.answer_sameHost (x : Xfer) (r : Reply) (rest : List Reply) (ok : Bool) (s : State) :
    s.SameHost (s.answer x r rest ok) :=
  ⟨State.answer_params .., State.answer_host .., State.answer_powerOn .., State.answer_commands ..,
    State.answer_descriptors ..⟩

theorem State.await_sameHost {x : Xfer} {o : Owner} {fin : Bool → List Byte → State → State}
    (hfin : ∀ ok d u, State.SameHost u (fin ok d u)) (s : State) : s.SameHost (s.await x o fin) :=
  State.await_keeps (P := s.SameHost) ⟨rfl, rfl, rfl, rfl, rfl⟩ fun r rest ok d _ =>
    (s.answer_sameHost x r rest ok).trans (hfin ok d _)

theorem State.issue_sameHost {x : Xfer} {o : Owner} {fin : Bool → List Byte → State → State}
    (hfin : ∀ ok d u, State.SameHost u (fin ok d u)) (s : State) : s.SameHost (s.issue x o fin) :=
  State.SameHost.trans (t := s.handOver x) ⟨rfl, rfl, rfl, rfl, rfl⟩ (State.await_sameHost hfin _)

theorem Owner.finish_sameHost (o : Owner) (ok : Bool) (d : List Byte) (s : State) : s.SameHost (o.finish ok d s) := by
  have start (firstOk ok : Bool) (d : List Byte) (s : State) : s.SameHost (finishClkInitStart firstOk ok d s) := by
    cases firstOk <;> cases ok <;> exact ⟨rfl, rfl, rfl, rfl, rfl⟩
  cases o with
  | bare => exact .refl s
  | clkInitStart firstOk => exact start firstOk ok d s
  | buffer => cases ok <;> exact ⟨rfl, rfl, rfl, rfl, rfl⟩
  | getTime => cases ok <;> exact ⟨rfl, rfl, rfl, rfl, rfl⟩
  | clkInitRam =>
    simp only [Owner.finish, finishClkInitRam]
    split
    · exact ⟨rfl, rfl, rfl, rfl, rfl⟩
    · exact State.issue_sameHost (start ok) s

theorem State.accept_sameHost {s t : State} {run : State → State} (h : s.accept run = .next t)
    (hrun : s.occupy.SameHost (run s.occupy)) : s.SameHost t := by
  refine State.accept_keeps h (.refl s) fun hr => ?_
  rw [State.accept_ready hr] at h
  cases h
  exact State.SameHost.trans (t := s.occupy) ⟨rfl, rfl, rfl, rfl, rfl⟩ hrun

theorem exec_sameHost {s t : State} {i : Instr} (h : exec i s = .next t) : s.SameHost t := by
  cases instrShape i with
  | clkInit => exact State.accept_sameHost h (State.issue_sameHost (Owner.finish_sameHost .clkInitRam) _)
  | getTime => exact State.accept_sameHost h (State.issue_sameHost (Owner.finish_sameHost .getTime) _)
  | buffer hi =>
    rw [exec_of_bufferOf hi] at h
    refine State.accept_sameHost h ?_
    unfold State.buffer
    split
    · exact State.issue_sameHost (Owner.finish_sameHost .buffer) _
    · exact ⟨rfl, rfl, rfl, rfl, rfl⟩
  | transfer hi =>
    rw [exec_of_transferOf hi] at h
    obtain ⟨-, rfl⟩ | ⟨-, -, rfl⟩ | ⟨-, _, _, _, -, -, rfl⟩ := State.bare_cases _ h
    all_goals exact ⟨rfl, rfl, rfl, rfl, rfl⟩

theorem State.powerOnReset_params (s : State) : s.powerOnReset.params = s.params :=
  State.abandon_params { s with draws := s.draws + 1 }

/-- Settles O4: no operation of a step writes the parameters. -/
theorem parametersNeverChange : Obligations.ParametersNeverChange := by
  intro s t h
  obtain ⟨-, rfl⟩ | ⟨-, fl, -, rfl⟩ | ⟨-, -, -, rfl⟩ | ⟨-, -, -, i, c, d, h⟩ | ⟨-, -, -, rfl⟩ := step_cases h
  · exact s.powerOnReset_params
  · exact (State.await_sameHost fl.owner.finish_sameHost s).params
  · rfl
  · exact (exec_sameHost h).params
  · rfl

/-! ### The invariant -/

/-- The part of the invariant that speaks of the parameters and the two memories. -/
structure State.StoresOk (s : State) : Prop where
  params : s.params.Ok
  ram : Memory.wf Config.ramCap s.clock.ram = true
  nvm : Memory.wf Config.nvmCap s.nvm = true

theorem State.Inv.storesOk {s : State} (h : s.Inv) : s.StoresOk := by
  obtain ⟨hc, hram, hnvm, -⟩ := h
  exact ⟨hc, hram, hnvm⟩

theorem State.StoresOk.effect {s : State} (h : s.StoresOk) (x : Xfer) (ok : Bool) : (x.effect ok s).StoresOk := by
  obtain ⟨hram, hnvm⟩ := x.effect_keeps ok h.ram h.nvm
  exact ⟨by simpa using h.params, hram, hnvm⟩

theorem State.StoresOk.answer {s : State} (h : s.StoresOk) (x : Xfer) (r : Reply) (rest : List Reply) (ok : Bool) :
    (s.answer x r rest ok).StoresOk := by
  have hreceived : (s.receive r rest).StoresOk := ⟨h.params, h.ram, h.nvm⟩
  obtain ⟨hc, hram, hnvm⟩ := hreceived.effect x ok
  exact ⟨hc, hram, hnvm⟩

theorem State.inv_of_rests {s : State} (h : s.StoresOk) (hb : s.busy = false) (hf : s.inFlight = none) : s.Inv :=
  ⟨h.params, h.ram, h.nvm, by simp [State.BusyIffWaiting, hb, hf], by simp [hf]⟩

theorem State.inv_of_waits {s : State} {x : Xfer} {o : Owner} (h : s.StoresOk) (hb : s.busy = decide (o ≠ .bare))
    (hf : s.inFlight = some { xfer := x, owner := o }) (ho : o.Owns s.params x) : s.Inv := by
  refine ⟨h.params, h.ram, h.nvm, by simp [State.BusyIffWaiting, hb, hf], fun fl hfl => ?_⟩
  obtain rfl := Option.some_inj.1 (hf.symm.trans hfl)
  exact ho

/-- BUSY says whether the owner of the transfer in flight is a command. -/
theorem State.Inv.busy_of_inFlight {s : State} (h : s.Inv) {fl : InFlight} (hf : s.inFlight = some fl) :
    s.busy = decide (fl.owner ≠ .bare) := by
  obtain ⟨-, -, -, (hb : s.busy = true ↔ _), -⟩ := h
  rw [Bool.eq_iff_iff, hb, decide_eq_true_iff]
  simp [hf]

theorem State.Inv.busy_of_noneInFlight {s : State} (h : s.Inv) (hf : s.inFlight = none) : s.busy = false := by
  obtain ⟨-, -, -, (hb : s.busy = true ↔ _), -⟩ := h
  rw [← Bool.not_eq_true, hb]
  simp [hf]

/-- What the owner `o` of a transfer does with its answer leads to the invariant. -/
def Owner.Restores (o : Owner) (fin : Bool → List Byte → State → State) : Prop :=
  ∀ ok d (u : State), u.StoresOk → u.busy = decide (o ≠ .bare) → u.inFlight = none → (fin ok d u).Inv

theorem State.await_inv {s : State} {x : Xfer} {o : Owner} {fin : Bool → List Byte → State → State} (h : s.StoresOk)
    (hb : s.busy = decide (o ≠ .bare)) (ho : o.Owns s.params x) (hfin : o.Restores fin) : (s.await x o fin).Inv :=
  State.await_keeps (P := State.Inv) (State.inv_of_waits ⟨h.params, h.ram, h.nvm⟩ hb rfl ho) fun r rest ok d _ =>
    hfin ok d _ (h.answer x r rest ok) (by rw [State.answer_busy, hb]) (State.answer_inFlight ..)

theorem State.issue_inv {s : State} {x : Xfer} {o : Owner} {fin : Bool → List Byte → State → State} (h : s.StoresOk)
    (hb : s.busy = decide (o ≠ .bare)) (ho : o.Owns s.params x) (hfin : o.Restores fin) : (s.issue x o fin).Inv :=
  State.await_inv (s := s.handOver x) ⟨h.params, h.ram, h.nvm⟩ hb ho hfin

theorem State.complete_inv {s : State} (h : s.StoresOk) (hf : s.inFlight = none) (st : Status) (d : List Byte) :
    (s.complete st d).Inv :=
  State.inv_of_rests ⟨h.params, h.ram, h.nvm⟩ rfl hf

theorem finishClkInitStart_restores (firstOk : Bool) :
    (Owner.clkInitStart firstOk).Restores (finishClkInitStart firstOk) := by
  intro ok d u hu _ hf
  unfold finishClkInitStart
  split
  · exact State.complete_inv hu hf _ _
  · exact State.complete_inv hu hf _ _

theorem Owner.finish_restores (o : Owner) : o.Restores o.finish := by
  cases o with
  | bare => exact fun ok d u hu hb hf => State.inv_of_rests hu hb hf
  | clkInitStart firstOk => exact finishClkInitStart_restores firstOk
  | buffer =>
    intro ok d u hu _ hf
    cases ok <;> exact State.complete_inv hu hf _ _
  | getTime =>
    intro ok d u hu _ hf
    cases ok
    · exact State.complete_inv (s := { u with tvalid := false }) ⟨hu.params, hu.ram, hu.nvm⟩ hf _ _
    · exact State.complete_inv (s := { u with time := _, tvalid := true }) ⟨hu.params, hu.ram, hu.nvm⟩ hf _ _
  | clkInitRam =>
    intro ok d u hu hb hf
    simp only [Owner.finish, finishClkInitRam]
    split
    · exact State.complete_inv hu hf _ _
    · exact State.issue_inv hu hb rfl (finishClkInitStart_restores ok)

/-- A command keeps the invariant if what it does once accepted, with BUSY set and nothing in flight, leads to it. -/
theorem State.accept_inv {s t : State} {run : State → State} (hinv : s.Inv) (h : s.accept run = .next t)
    (hrun : s.occupy.StoresOk → s.occupy.inFlight = none → (run s.occupy).Inv) : t.Inv := by
  refine State.accept_keeps h hinv fun hr => ?_
  rw [State.accept_ready hr] at h
  cases h
  obtain ⟨hc, hram, hnvm⟩ := hinv.storesOk
  exact hrun ⟨hc, hram, hnvm⟩ ((State.ready_iff s).1 hr).2

/-- Every instruction keeps the invariant, whether or not it is accepted. -/
theorem exec_inv {s t : State} {i : Instr} (hinv : s.Inv) (h : exec i s = .next t) : t.Inv := by
  cases instrShape i with
  | clkInit =>
    exact State.accept_inv hinv h fun hu _ => State.issue_inv hu rfl rfl (Owner.finish_restores .clkInitRam)
  | getTime => exact State.accept_inv hinv h fun hu _ => State.issue_inv hu rfl rfl (Owner.finish_restores .getTime)
  | buffer hi =>
    rw [exec_of_bufferOf hi] at h
    refine State.accept_inv hinv h fun hu hf => ?_
    unfold State.buffer
    split
    · next hl => exact State.issue_inv hu rfl (bufferOf_owns hi (of_decide_eq_true hl) _) (Owner.finish_restores .buffer)
    · exact State.complete_inv hu hf _ _
  | transfer hi =>
    rw [exec_of_transferOf hi] at h
    cases h
    split
    · next hf =>
      exact State.issue_inv hinv.storesOk (hinv.busy_of_noneInFlight (Option.isNone_iff_eq_none.1 hf)) trivial
        (Owner.finish_restores .bare)
    · exact hinv

theorem State.resume_inv {s : State} (hinv : s.Inv) {fl : InFlight} (hf : s.inFlight = some fl) : (s.resume fl).Inv := by
  have hb := hinv.busy_of_inFlight hf
  have hs := hinv.storesOk
  obtain ⟨-, -, -, -, howns⟩ := hinv
  exact State.await_inv hs hb (howns fl hf) fl.owner.finish_restores

theorem State.powerOnReset_inv {s : State} (hinv : s.Inv) : s.powerOnReset.Inv := by
  obtain ⟨hc, hram, hnvm⟩ := hinv.storesOk
  have habandoned : State.StoresOk { s with draws := s.draws + 1 }.abandon := by
    unfold State.abandon
    split
    · exact ⟨hc, hram, hnvm⟩
    · exact State.StoresOk.effect (s := { s with draws := s.draws + 1 }) ⟨hc, hram, hnvm⟩ _ _
  exact State.inv_of_rests ⟨habandoned.params, habandoned.ram, habandoned.nvm⟩ rfl rfl

/-- Settles O3, over the cases of a step. -/
theorem stepKeepsTheInvariant : Obligations.StepKeepsTheInvariant := by
  intro s t hinv h
  obtain ⟨-, rfl⟩ | ⟨-, fl, hf, rfl⟩ | ⟨-, -, -, rfl⟩ | ⟨-, -, -, i, c, d, h⟩ | ⟨-, -, -, rfl⟩ := step_cases h
  · exact State.powerOnReset_inv hinv
  · exact State.resume_inv hinv hf
  · exact hinv
  · exact exec_inv (s := { s with commands := c, descriptors := d }) hinv h
  · exact hinv

/-- Settles O1: the fields are written in `State.reset`. -/
theorem resetHasItsStatedValues : Obligations.ResetHasItsStatedValues := ⟨rfl, rfl, rfl, rfl⟩

/-- Settles O2: the memories are empty, and the common parameters are ones R9 allows. -/
theorem resetMeetsTheInvariant : Obligations.ResetMeetsTheInvariant :=
  State.inv_of_rests ⟨by decide, rfl, rfl⟩ rfl rfl

end Sys2Proof.Machine
end

section
/-! The decoder and the encoder as inverses (R72, R75, R79, R82), the 41 bits of a descriptor and what its mask and match
select (R79 to R81), and the places of the fields of TIME (R24). -/

namespace Sys2Proof.Machine

/-! ### Decoding what was encoded -/

@[simp] theorem highByte_setWidth (reg : Pointer8) : highByte (reg.setWidth 16) = 0 := by
  have := reg.isLt
  apply BitVec.eq_of_toNat_eq
  rw [highByte_toNat, BitVec.toNat_setWidth, show (0 : Byte).toNat = 0 from rfl]
  omega

@[simp] theorem lowByte_setWidth (reg : Pointer8) : lowByte (reg.setWidth 16) = reg := by
  have := reg.isLt
  apply BitVec.eq_of_toNat_eq
  rw [lowByte_toNat, BitVec.toNat_setWidth]
  omega

/-- A pointer whose high byte is zero is its low byte, extended (R79, R92). -/
theorem setWidth_lowByte {reg : Pointer16} (h : highByte reg = 0) : (lowByte reg).setWidth 16 = reg := by
  have h0 := congrArg BitVec.toNat h
  have := reg.isLt
  rw [highByte_toNat, show (0 : Byte).toNat = 0 from rfl] at h0
  apply BitVec.eq_of_toNat_eq
  rw [BitVec.toNat_setWidth, lowByte_toNat]
  omega

/-- Settles O5, row by row: the word gives the fields back, and the payload is taken whole. -/
theorem decodeOfEncodeIsTheInstruction : Obligations.DecodeOfEncodeIsTheInstruction := by
  intro i rest hwf
  cases i with
  | clkInit => exact decodeCommand_commandBytes 1 0 0 rest
  | ramGet len => exact decodeCommand_commandBytes 2 0 len rest
  | getTime => exact decodeCommand_commandBytes 4 0 0 rest
  | nvmGet off len => exact decodeCommand_commandBytes 5 off len rest
  | ramSet len bs =>
    rw [Instr.encode, List.append_assoc]
    refine (decodeCommand_commandBytes 3 0 len _).trans ?_
    simp [decodeCommandFields, takePayload_append (beq_iff_eq.1 hwf)]
  | nvmSet off len bs =>
    rw [Instr.encode, List.append_assoc]
    refine (decodeCommand_commandBytes 6 off len _).trans ?_
    simp [decodeCommandFields, takePayload_append (beq_iff_eq.1 hwf)]
  | xferW8 dev reg len bs =>
    rw [Instr.encode, List.append_assoc]
    refine (decodeDescriptor_descriptorBytes false dev false _ len _).trans ?_
    simp [decodeDescriptorFields, takePayload_append (beq_iff_eq.1 hwf)]
  | xferR8 dev reg len =>
    refine (decodeDescriptor_descriptorBytes false dev true _ len rest).trans ?_
    simp [decodeDescriptorFields]
  | xferW16 dev reg len bs =>
    rw [Instr.encode, List.append_assoc]
    refine (decodeDescriptor_descriptorBytes true dev false reg len _).trans ?_
    simp [decodeDescriptorFields, takePayload_append (beq_iff_eq.1 hwf)]
  | xferR16 dev reg len => exact decodeDescriptor_descriptorBytes true dev true reg len rest

/-! ### Encoding what was decoded -/

/-- `i` is read at the port `p` from the bytes `bs`, with `rest` left: it is well formed and encodes to those bytes. -/
structure ReadFrom (p : Port) (bs : List Byte) (i : Instr) (rest : List Byte) : Prop where
  port : i.port = p
  wellFormed : i.wellFormed = true
  encode : i.encode ++ rest = bs

theorem ReadFrom.of_payload {p : Port} {word bs rest q : List Byte} {len : Length} {i : Instr}
    (hq : takePayload len bs = .ok (q, rest)) (hport : i.port = p) (hwf : i.wellFormed = (q.length == len.toNat))
    (hword : i.encode = word ++ q) : ReadFrom p (word ++ bs) i rest := by
  obtain ⟨hl, hbs⟩ := takePayload_ok hq
  exact ⟨hport, hwf.trans (beq_iff_eq.2 hl), by rw [hword, List.append_assoc, hbs]⟩

theorem decodeCommandFields_ok {opc : Byte} {off : Pointer16} {len : Length} {bs rest : List Byte} {i : Instr}
    (h : decodeCommandFields opc off len bs = .ok (i, rest)) :
    ReadFrom .command (commandBytes opc off len ++ bs) i rest := by
  by_cases hv : ValidCommand opc off len
  swap
  · obtain ⟨e, he⟩ := decodeCommandFields_of_not_valid hv bs
    simp [he] at h
  obtain ⟨⟨h1, h6⟩, hoff, hlen⟩ := hv
  obtain rfl | rfl | rfl | rfl | rfl | rfl : opc = 1 ∨ opc = 2 ∨ opc = 3 ∨ opc = 4 ∨ opc = 5 ∨ opc = 6 := by bv_omega
  · obtain rfl := hoff (by decide)
    obtain rfl := hlen (.inl rfl)
    cases h
    exact ⟨rfl, rfl, rfl⟩
  · obtain rfl := hoff (by decide)
    cases h
    exact ⟨rfl, rfl, rfl⟩
  · obtain rfl := hoff (by decide)
    cases hp : takePayload len bs with
    | error e => simp [decodeCommandFields, hp] at h
    | ok pr =>
      obtain ⟨rfl, rfl⟩ : _ ∧ _ := by simpa [decodeCommandFields, hp] using h
      exact .of_payload hp rfl rfl rfl
  · obtain rfl := hoff (by decide)
    obtain rfl := hlen (.inr rfl)
    cases h
    exact ⟨rfl, rfl, rfl⟩
  · cases h
    exact ⟨rfl, rfl, rfl⟩
  · cases hp : takePayload len bs with
    | error e => simp [decodeCommandFields, hp] at h
    | ok pr =>
      obtain ⟨rfl, rfl⟩ : _ ∧ _ := by simpa [decodeCommandFields, hp] using h
      exact .of_payload hp rfl rfl rfl

theorem decodeCommand_ok {bs rest : List Byte} {i : Instr} (h : decodeCommand bs = .ok (i, rest)) :
    ReadFrom .command bs i rest := by
  unfold decodeCommand at h
  split at h
  · simpa [commandBytes] using decodeCommandFields_ok h
  · cases h

/-- The first two bytes of a descriptor are W16 under seven zero bits, and DEV with RNW (log entry 11). -/
theorem descriptorBytes_fields {w dr : Byte} (hw : w.toNat < 2) (reg : Pointer16) (len : Length) :
    descriptorBytes (w.getLsbD 0) (dr.extractLsb' 1 7) (dr.getLsbD 0) reg len =
      [w, dr, highByte reg, lowByte reg, highByte len, lowByte len] := by
  have hw' : (BitVec.ofBool (w.getLsbD 0)).setWidth 8 = w := by
    obtain rfl | rfl : w = 0 ∨ w = 1 := by bv_omega
    all_goals rfl
  have hdr : (dr.extractLsb' 1 7 ++ BitVec.ofBool (dr.getLsbD 0) : BitVec 8) = dr := by
    revert dr
    decide
  rw [descriptorBytes, hw', hdr]

theorem decodeDescriptorFields_reserved (dev : DeviceId) (rnw : Bool) {reg : Pointer16} (h : highByte reg ≠ 0)
    (len : Length) (rest : List Byte) : decodeDescriptorFields false dev rnw reg len rest = .error .reservedRegister :=
  if_pos h

theorem decodeDescriptorFields_ok {w16 : Bool} {dev : DeviceId} {rnw : Bool} {reg : Pointer16} {len : Length}
    {bs rest : List Byte} {i : Instr} (h : decodeDescriptorFields w16 dev rnw reg len bs = .ok (i, rest)) :
    ReadFrom .transfer (descriptorBytes w16 dev rnw reg len ++ bs) i rest := by
  cases w16 with
  | true =>
    cases rnw with
    | true =>
      cases h
      exact ⟨rfl, rfl, rfl⟩
    | false =>
      cases hp : takePayload len bs with
      | error e => simp [decodeDescriptorFields, hp] at h
      | ok pr =>
        obtain ⟨rfl, rfl⟩ : _ ∧ _ := by simpa [decodeDescriptorFields, hp] using h
        exact .of_payload hp rfl rfl rfl
  | false =>
    by_cases hreg : highByte reg = 0
    swap
    · rw [decodeDescriptorFields_reserved dev rnw hreg] at h
      cases h
    have hword := setWidth_lowByte hreg
    cases rnw with
    | true =>
      obtain ⟨rfl, rfl⟩ : _ ∧ _ := by simpa [decodeDescriptorFields, hreg] using h
      exact ⟨rfl, rfl, by rw [Instr.encode, hword]⟩
    | false =>
      cases hp : takePayload len bs with
      | error e => simp [decodeDescriptorFields, hreg, hp] at h
      | ok pr =>
        obtain ⟨rfl, rfl⟩ : _ ∧ _ := by simpa [decodeDescriptorFields, hreg, hp] using h
        exact .of_payload hp rfl rfl (by rw [Instr.encode, hword])

theorem decodeDescriptor_ok {bs rest : List Byte} {i : Instr} (h : decodeDescriptor bs = .ok (i, rest)) :
    ReadFrom .transfer bs i rest := by
  unfold decodeDescriptor at h
  split at h
  · split at h
    · cases h
    · next hw =>
      have hread := decodeDescriptorFields_ok h
      rw [descriptorBytes_fields (Nat.lt_of_not_le hw)] at hread
      simpa using hread
  · cases h

/-- Settles O6, port by port. -/
theorem encodeOfDecodeIsTheBytes : Obligations.EncodeOfDecodeIsTheBytes := by
  intro p bs i rest h
  cases p with
  | command =>
    obtain ⟨hport, hwf, henc⟩ := decodeCommand_ok h
    exact ⟨hport, hwf, henc⟩
  | transfer =>
    obtain ⟨hport, hwf, henc⟩ := decodeDescriptor_ok h
    exact ⟨hport, hwf, henc⟩

/-- Settles O10: the decoder computes on the bytes given. -/
theorem specWordsDecode : Obligations.SpecWordsDecode := by
  unfold Obligations.SpecWordsDecode
  decide

/-! ### The 41 bits of a descriptor -/

/-- Settles O11: the fields stand side by side. -/
theorem descriptorLayout : Obligations.DescriptorLayout := by
  intro x
  have hdev := x.dev.isLt
  have hrnw := (BitVec.ofBool x.rnw).isLt
  have hreg := x.reg.isLt
  have hlen := x.len.isLt
  simp only [Xfer.descriptor, BitVec.toNat_append]
  rw [← Nat.shiftLeft_add_eq_or_of_lt hdev, ← Nat.shiftLeft_add_eq_or_of_lt hrnw, ← Nat.shiftLeft_add_eq_or_of_lt hreg,
    ← Nat.shiftLeft_add_eq_or_of_lt hlen]
  simp only [Nat.shiftLeft_eq, BitVec.toNat_ofBool]
  omega

/-- The 41 bits of a descriptor: W16, DEV, RNW, REG, LEN from the most significant end (R79). -/
def descriptorWord (w16 : Bool) (dev : DeviceId) (rnw : Bool) (reg : Pointer16) (len : Length) :
    BitVec (1 + 7 + 1 + 16 + 16) :=
  BitVec.ofBool w16 ++ dev ++ BitVec.ofBool rnw ++ reg ++ len

theorem bool_eq_iff_toNat (b b' : Bool) : b = b' ↔ b.toNat = b'.toNat :=
  ⟨congrArg _, fun h => by rw [← Bool.ofNat_toNat b, h, Bool.ofNat_toNat]⟩

section word

variable (w16 : Bool) (dev : DeviceId) (rnw : Bool) (reg : Pointer16) (len : Length)

theorem descriptorWord_toNat : (descriptorWord w16 dev rnw reg len).toNat =
    w16.toNat * 2 ^ 40 + dev.toNat * 2 ^ 33 + rnw.toNat * 2 ^ 32 + reg.toNat * 2 ^ 16 + len.toNat :=
  descriptorLayout { w16 := w16, dev := dev, rnw := rnw, reg := reg, len := len, payload := [] }

theorem descriptorWord_inj {w16' : Bool} {dev' : DeviceId} {rnw' : Bool} {reg' : Pointer16} {len' : Length} :
    descriptorWord w16 dev rnw reg len = descriptorWord w16' dev' rnw' reg' len' ↔
      w16 = w16' ∧ dev = dev' ∧ rnw = rnw' ∧ reg = reg' ∧ len = len' := by
  have hdev := dev.isLt
  have hdev' := dev'.isLt
  have hreg := reg.isLt
  have hreg' := reg'.isLt
  have hlen := len.isLt
  have hlen' := len'.isLt
  have hrnw := rnw.toNat_lt
  have hrnw' := rnw'.toNat_lt
  simp only [← BitVec.toNat_inj, descriptorWord_toNat, bool_eq_iff_toNat]
  omega

theorem exists_descriptorWord {w : Nat} (h : w < 2 ^ 41) :
    ∃ w16 dev rnw reg len, w = (descriptorWord w16 dev rnw reg len).toNat := by
  refine ⟨w.testBit 40, BitVec.ofNat 7 (w / 2 ^ 33), w.testBit 32, BitVec.ofNat 16 (w / 2 ^ 16), BitVec.ofNat 16 w, ?_⟩
  simp only [descriptorWord_toNat, BitVec.toNat_ofNat, Nat.toNat_testBit]
  omega

/-- The six bytes of the descriptor, most significant first (log entry 11). -/
theorem numberBytes_descriptorWord :
    numberBytes (descriptorWord w16 dev rnw reg len).toNat 6 = descriptorBytes w16 dev rnw reg len := by
  have hdev := dev.isLt
  have hreg := reg.isLt
  have hlen := len.isLt
  have hrnw := rnw.toNat_lt
  have hw16 := w16.toNat_lt
  have hdr : (dev ++ BitVec.ofBool rnw).toNat = dev.toNat * 2 + rnw.toNat := by
    rw [BitVec.toNat_append, ← Nat.shiftLeft_add_eq_or_of_lt (BitVec.ofBool rnw).isLt, Nat.shiftLeft_eq,
      BitVec.toNat_ofBool]
  simp only [numberBytes, descriptorBytes, descriptorWord_toNat, List.cons.injEq, and_true, ← BitVec.toNat_inj,
    BitVec.toNat_ofNat, highByte_toNat, lowByte_toNat, hdr, BitVec.toNat_setWidth, BitVec.toNat_ofBool]
  omega

/-! ### Mask and match of a descriptor -/

/-- Masking a descriptor masks each of its fields. -/
theorem descriptorWord_and_eq_iff {mw cw : Bool} {md cd : DeviceId} {mr cr : Bool} {mg cg : Pointer16} {ml cl : Length} :
    (descriptorWord w16 dev rnw reg len).toNat &&& (descriptorWord mw md mr mg ml).toNat =
        (descriptorWord cw cd cr cg cl).toNat ↔
      (w16 && mw) = cw ∧ dev &&& md = cd ∧ (rnw && mr) = cr ∧ reg &&& mg = cg ∧ len &&& ml = cl := by
  rw [← BitVec.toNat_and, BitVec.toNat_inj, ← descriptorWord_inj]
  simp only [descriptorWord, BitVec.and_append, BitVec.ofBool_and_ofBool]

theorem and_highMask_eq_zero_iff : reg &&& 0xFF00 = 0 ↔ highByte reg = 0 := by
  have hmask : reg &&& 0xFF00 = joinBytes (highByte reg) 0 := by
    conv_lhs => rw [← joinBytes_bytes reg]
    refine (BitVec.and_append (x₂ := BitVec.allOnes 8) (y₂ := 0#8)).trans ?_
    rw [BitVec.and_allOnes, BitVec.and_zero]
    rfl
  rw [hmask]
  refine ⟨fun h => ?_, fun h => by rw [h]; rfl⟩
  rw [← highByte_joinBytes (highByte reg) 0, h]
  rfl

/-- R80, R81 in terms of the fields. -/
theorem descriptorWord_selects_iff {j : Instr} (hj : j.port = .transfer) :
    (descriptorWord w16 dev rnw reg len).toNat &&& tableMask j = tableMatch j ↔
      tableMatch j = w16.toNat * 2 ^ 40 + rnw.toNat * 2 ^ 32 ∧ (w16 = false → highByte reg = 0) := by
  have narrow (r : Bool) : (descriptorWord w16 dev rnw reg len).toNat &&&
      (descriptorWord true 0 true 0xFF00 0).toNat = (descriptorWord false 0 r 0 0).toNat ↔
      w16 = false ∧ rnw = r ∧ highByte reg = 0 := by
    rw [descriptorWord_and_eq_iff, and_highMask_eq_zero_iff]
    simp
  have wide (r : Bool) : (descriptorWord w16 dev rnw reg len).toNat &&&
      (descriptorWord true 0 true 0 0).toNat = (descriptorWord true 0 r 0 0).toNat ↔ w16 = true ∧ rnw = r := by
    rw [descriptorWord_and_eq_iff]
    simp
  -- each row's mask and match are themselves descriptors
  cases j with
  | xferW8 _ _ _ _ => exact (narrow false).trans (by cases w16 <;> cases rnw <;> simp [tableMatch])
  | xferR8 _ _ _ => exact (narrow true).trans (by cases w16 <;> cases rnw <;> simp [tableMatch])
  | xferW16 _ _ _ _ => exact (wide false).trans (by cases w16 <;> cases rnw <;> simp [tableMatch])
  | xferR16 _ _ _ => exact (wide true).trans (by cases w16 <;> cases rnw <;> simp [tableMatch])
  | clkInit => cases hj
  | ramGet => cases hj
  | ramSet => cases hj
  | getTime => cases hj
  | nvmGet => cases hj
  | nvmSet => cases hj

/-- A descriptor that is not reserved, with no payload cut short, decodes to a transfer of the row of its W16 and RNW. -/
theorem decodeDescriptorFields_of_valid {w16 : Bool} {reg : Pointer16} (h : w16 = false → highByte reg = 0)
    {rest : List Byte} (hrest : 65535 ≤ rest.length) :
    ∃ i r, decodeDescriptorFields w16 dev rnw reg len rest = .ok (i, r) ∧ i.port = .transfer ∧
      tableMatch i = w16.toNat * 2 ^ 40 + rnw.toNat * 2 ^ 32 := by
  cases w16 with
  | true =>
    cases rnw with
    | true => exact ⟨_, _, rfl, rfl, rfl⟩
    | false =>
      exact ⟨.xferW16 dev reg len (rest.take len.toNat), rest.drop len.toNat,
        by simp [decodeDescriptorFields, takePayload_of_long hrest], rfl, rfl⟩
  | false =>
    cases rnw with
    | true => exact ⟨.xferR8 dev (lowByte reg) len, rest, (if_neg (not_not_intro (h rfl))), rfl, rfl⟩
    | false =>
      exact ⟨.xferW8 dev (lowByte reg) len (rest.take len.toNat), rest.drop len.toNat,
        by simp [decodeDescriptorFields, h, takePayload_of_long hrest], rfl, rfl⟩

end word

/-- Settles O8: the fields of a descriptor decide both which rows its bits select and what it decodes to. -/
theorem descriptorSelectsItsRow : Obligations.DescriptorSelectsItsRow := by
  intro w rest hw hrest
  obtain ⟨w16, dev, rnw, reg, len, rfl⟩ := exists_descriptorWord hw
  rw [numberBytes_descriptorWord, decodeDescriptor_descriptorBytes]
  by_cases hv : w16 = false → highByte reg = 0
  · obtain ⟨i, r, hi, hport, hmatch⟩ := decodeDescriptorFields_of_valid dev rnw len hv hrest
    have hsel := (descriptorWord_selects_iff w16 dev rnw reg len hport).2 ⟨hmatch, hv⟩
    refine ⟨fun j hj => ?_, fun hnone => absurd hsel (hnone i hport)⟩
    rw [descriptorWord_selects_iff w16 dev rnw reg len hj, hi, ← hmatch]
    rw [and_iff_left hv]
    simp [eq_comm]
  · obtain ⟨rfl, hreg⟩ := Classical.not_imp.1 hv
    rw [decodeDescriptorFields_reserved dev rnw hreg]
    refine ⟨fun j hj => ?_, fun _ => rfl⟩
    rw [descriptorWord_selects_iff false dev rnw reg len hj]
    exact iff_of_false (fun hsel => hv hsel.2) (by simp)

/-! ### The fields of TIME (R24) and BcdSplit (R115) -/

/-- Settles O29: the four fields stand side by side, and each is cut out again at its place. -/
theorem timeFieldsHaveTheirBits : Obligations.TimeFieldsHaveTheirBits := by
  intro t
  have hso := t.so.isLt
  have hmt := t.mt.isLt
  have hmo := t.mo.isLt
  have hpacked : t.packed.toNat = t.st.toNat * 2 ^ 11 + t.so.toNat * 2 ^ 7 + t.mt.toNat * 2 ^ 4 + t.mo.toNat := by
    simp only [TimeReg.packed, BitVec.toNat_append]
    rw [← Nat.shiftLeft_add_eq_or_of_lt hso, ← Nat.shiftLeft_add_eq_or_of_lt hmt, ← Nat.shiftLeft_add_eq_or_of_lt hmo]
    simp only [Nat.shiftLeft_eq]
    omega
  refine ⟨hpacked, ?_⟩
  have hst := t.st.isLt
  obtain ⟨st, so, mt, mo⟩ := t
  simp only [TimeReg.unpack, TimeReg.mk.injEq, ← BitVec.toNat_inj, BitVec.extractLsb'_toNat, hpacked,
    Nat.shiftRight_eq_div_pow]
  dsimp only at hso hmt hmo hst
  omega

/-- Settles O27: neither digit takes bit 7, and each takes exactly its own bits. -/
theorem bcdSplitIgnoresBitSeven : Obligations.BcdSplitIgnoresBitSeven := by
  intro b
  refine ⟨?_, fun bit7 tens ones => ?_⟩
  · revert b
    decide
  · revert bit7 tens ones
    decide

end Sys2Proof.Machine
end

section
/-! The step: what it takes from the streams (R70, R79), the late reply (R36, R100), the hang (R155), what is not accepted
(R26, R104), and the reset event (R160, R161). -/

namespace Sys2Proof.Machine

/-! ### Taking a word from the streams -/

theorem State.fetch_command {s : State} (hd : s.descriptors = []) {i : Instr} {rest : List Byte}
    (h : decodeCommand s.commands = .ok (i, rest)) : s.fetch = some (.ok (i, { s with commands := rest })) := by
  have hne : s.commands ≠ [] := by
    intro hnil
    rw [hnil] at h
    cases h
  unfold State.fetch
  split
  case h_1 hc => exact absurd hc hne
  case h_2 => rw [h]
  case h_3 hds _ => exact absurd hd hds

theorem State.fetch_descriptor {s : State} (hd : s.descriptors ≠ []) {i : Instr} {rest : List Byte}
    (h : decodeDescriptor s.descriptors = .ok (i, rest)) :
    s.fetch = some (.ok (i, { s with descriptors := rest })) := by
  unfold State.fetch
  split
  case h_1 hds _ => exact absurd hds hd
  case h_2 hds _ => exact absurd hds hd
  case h_3 => rw [h]

theorem State.fetch_empty {s : State} (hd : s.descriptors = []) (hc : s.commands = []) : s.fetch = none := by
  unfold State.fetch
  rw [hd, hc]

/-- All that a word taken from the streams can be. -/
theorem State.fetch_ok_cases {s s' : State} {i : Instr} (h : s.fetch = some (.ok (i, s'))) :
    (∃ rest, decodeDescriptor s.descriptors = .ok (i, rest) ∧ s' = { s with descriptors := rest }) ∨
    (∃ rest, s.descriptors = [] ∧ decodeCommand s.commands = .ok (i, rest) ∧ s' = { s with commands := rest }) := by
  unfold State.fetch at h
  split at h
  · cases h
  · split at h
    · next hdec =>
      cases h
      exact .inr ⟨_, ‹_›, hdec, rfl⟩
    · cases h
  · split at h
    · next hdec =>
      cases h
      exact .inl ⟨_, hdec, rfl⟩
    · cases h

/-- Settles O12: with no descriptor waiting the step takes the command. -/
theorem stepRunsThePresentedCommand : Obligations.StepRunsThePresentedCommand :=
  fun _ _ _ hidle hd h => step_fetched hidle (State.fetch_command hd h)

/-- Settles O13: a descriptor is taken before any command. -/
theorem stepRunsTheHandedDescriptor : Obligations.StepRunsTheHandedDescriptor :=
  fun _ _ _ hidle hd h => step_fetched hidle (State.fetch_descriptor hd h)

/-! ### What is not accepted (R26, R104) -/

theorem State.ready_eq_false_of_busy {s : State} (h : s.busy = true) : s.ready = false := by
  simp [State.ready, h]

theorem State.ready_eq_false_of_inFlight {s : State} (h : s.inFlight.isSome = true) : s.ready = false := by
  cases hf : s.inFlight with
  | none => simp [hf] at h
  | some fl => simp [State.ready, hf]

theorem exec_notReady {s : State} {i : Instr} (hp : i.port = .command) (h : s.ready = false) : exec i s = .next s := by
  cases instrShape i with
  | clkInit => exact State.accept_notReady h _
  | getTime => exact State.accept_notReady h _
  | buffer hi =>
    rw [exec_of_bufferOf hi]
    exact State.accept_notReady h _
  | transfer hi => simp [transferOf_port hi] at hp

theorem exec_whileInFlight {s : State} (i : Instr) (h : s.inFlight.isSome = true) : exec i s = .next s := by
  cases hp : i.port with
  | command => exact exec_notReady hp (State.ready_eq_false_of_inFlight h)
  | transfer =>
    obtain ⟨x, hx⟩ := transferOf_of_port hp
    rw [exec_of_transferOf hx, State.bare, if_neg]
    simpa [Option.isSome_iff_ne_none] using h

/-- Settles O16: a BUSY block is not ready. -/
theorem busyBlockAcceptsNoCommand : Obligations.BusyBlockAcceptsNoCommand :=
  fun _ _ hp hb => exec_notReady hp (State.ready_eq_false_of_busy hb)

/-- From `s` to `t` as many transfers are issued as are answered, and one more when one is left in flight. -/
def State.Accounts (s t : State) : Prop :=
  t.issued.length + s.returned.length =
    s.issued.length + t.returned.length + (if t.inFlight.isSome then 1 else 0)

theorem exec_accounts {s t : State} {i : Instr} (hr : s.ready = true) (h : exec i s = .next t) : s.Accounts t := by
  obtain ⟨-, hf⟩ := (State.ready_iff s).1 hr
  unfold State.Accounts
  cases instrShape i with
  | clkInit =>
    obtain ⟨-, rfl⟩ | ⟨_, _, _, -, rfl⟩ | ⟨_, _, _, _, rfl⟩ | ⟨_, _, _, _, _, rfl⟩ := execClkInit_cases hr h
    all_goals simp +arith [hf]
  | getTime =>
    obtain ⟨-, rfl⟩ | ⟨_, _, _, -, -, -, rfl⟩ | ⟨_, _, -, -, rfl⟩ := execGetTime_cases hr h
    all_goals simp +arith [hf]
  | buffer hi =>
    rw [exec_of_bufferOf hi] at h
    obtain ⟨-, rfl⟩ | ⟨-, -, rfl⟩ | ⟨-, _, _, _, -, -, rfl⟩ := State.accept_buffer_cases hr _ h
    all_goals simp +arith [hf]
  | transfer hi =>
    rw [exec_of_transferOf hi] at h
    obtain ⟨hne, -⟩ | ⟨-, -, rfl⟩ | ⟨-, _, _, _, -, -, rfl⟩ := State.bare_cases _ h
    · exact absurd hf hne
    all_goals simp +arith [hf]

/-- Settles O17: an instruction that meets a transfer in flight is not accepted; the others, case by case of their meaning. -/
theorem oneTransferOutstanding : Obligations.OneTransferOutstanding := by
  intro s t i h
  refine ⟨fun hf => ?_, fun hr => exec_accounts hr h⟩
  rw [exec_whileInFlight i hf] at h
  cases h
  rfl

/-! ### The late reply (R36, R100) -/

/-- `s` with more replies to come. -/
def State.addReplies (rs : List Reply) (s : State) : State := { s with replies := s.replies ++ rs }

/-- Whether a transfer was in flight before it waits makes no difference. -/
theorem State.await_hold (x y : Xfer) (o o' : Owner) (fin : Bool → List Byte → State → State) (s : State) :
    (s.hold y o').await x o fin = s.await x o fin := rfl

theorem State.answer_addReplies (x : Xfer) (r : Reply) (rest rs : List Reply) (ok : Bool) (s : State) :
    (s.addReplies rs).answer x r (rest ++ rs) ok = (s.answer x r rest ok).addReplies rs := by
  have hclock : (x.effect ok ((s.addReplies rs).receive r (rest ++ rs))).clock = (x.effect ok (s.receive r rest)).clock := by
    simp only [Xfer.effect_clock, Xfer.store_clock]
    rfl
  have hnvm : (x.effect ok ((s.addReplies rs).receive r (rest ++ rs))).nvm = (x.effect ok (s.receive r rest)).nvm := by
    simp only [Xfer.effect_nvm, Xfer.store_nvm]
    rfl
  rw [State.answer_eq, State.answer_eq, hclock, hnvm]
  rfl

/-- The transfer in flight, if there is one, goes on. -/
def State.goOn (s : State) : State :=
  match s.inFlight with
  | none => s
  | some fl => s.resume fl

/-- If `run` leaves `s` with a transfer waiting, it makes no difference that more replies come only then. -/
def State.Patient (run : State → State) (s : State) : Prop :=
  (run s).inFlight.isSome = true → ∀ rs, ((run s).addReplies rs).goOn = run (s.addReplies rs)

theorem State.await_patient {s : State} (x : Xfer) (o : Owner)
    (hfin : ∀ ok d r rest, s.replies = r :: rest → State.Patient (o.finish ok d) (s.answer x r rest ok)) :
    State.Patient (State.await x o o.finish) s := by
  intro hf rs
  obtain ⟨hn, hw⟩ | ⟨r, rest, ok, hr, ho, hw⟩ := s.await_cases x o o.finish
  · rw [hw]
    exact State.await_hold x x o o o.finish (s.addReplies rs)
  · have hr' : (s.addReplies rs).replies = r :: (rest ++ rs) := by simp [State.addReplies, hr]
    have hlate : (s.addReplies rs).await x o o.finish =
        o.finish ok (x.data ok (s.receive r rest)) ((s.answer x r rest ok).addReplies rs) := by
      rw [← State.answer_addReplies]
      cases ok
      · exact State.await_fail hr' ho x o _
      · exact State.await_ok hr' ho x o _
    rw [hw] at hf ⊢
    rw [hlate]
    exact hfin ok _ r rest hr hf rs

theorem State.issue_patient {s : State} (x : Xfer) (o : Owner)
    (hfin : ∀ ok d r rest, s.replies = r :: rest → State.Patient (o.finish ok d) ((s.handOver x).answer x r rest ok)) :
    State.Patient (State.issue x o o.finish) s :=
  State.await_patient (s := s.handOver x) x o hfin

/-- A run that leaves nothing in flight has no late reply to take. -/
theorem State.patient_of_rests {run : State → State} {s : State} (h : (run s).inFlight = none) : State.Patient run s := by
  intro hf
  simp [h] at hf

theorem Owner.finish_rests {o : Owner} (ho : o ≠ .clkInitRam) {s : State} (hf : s.inFlight = none) (ok : Bool)
    (d : List Byte) : (o.finish ok d s).inFlight = none := by
  cases o with
  | clkInitRam => exact absurd rfl ho
  | bare => exact hf
  | clkInitStart firstOk => cases firstOk <;> cases ok <;> exact hf
  | buffer => cases ok <;> exact hf
  | getTime => cases ok <;> exact hf

/-- An owner other than CLK_INIT's first issues no other transfer. -/
theorem State.issue_patient_once {s : State} (x : Xfer) {o : Owner}
    (ho : o ≠ .clkInitRam) : State.Patient (State.issue x o o.finish) s :=
  State.issue_patient x o fun ok d _ _ _ =>
    State.patient_of_rests (Owner.finish_rests ho (State.answer_inFlight ..) ok d)

theorem finishClkInitRam_patient {s : State} (hf : s.inFlight = none) (ok : Bool) (d : List Byte) :
    State.Patient (finishClkInitRam ok d) s := by
  by_cases hgo : ok = true ∨ s.params.initStopOnFail = false
  · intro hwaits rs
    rw [finishClkInitRam_continues hgo] at hwaits ⊢
    rw [finishClkInitRam_continues (s := s.addReplies rs) hgo]
    exact State.issue_patient_once _ (o := .clkInitStart ok) (by simp) hwaits rs
  · refine State.patient_of_rests ?_
    obtain ⟨rfl, hstop⟩ : ok = false ∧ s.params.initStopOnFail = true := by simpa using hgo
    simp [finishClkInitRam, hstop, hf]

theorem State.accept_patient {s t : State} {run : State → State} (hrun : State.Patient run s.occupy)
    (hr : s.ready = true) (h : s.accept run = .next t) (hf : t.inFlight.isSome = true) (rs : List Reply) :
    .next (t.addReplies rs).goOn = (s.addReplies rs).accept run := by
  rw [State.accept_ready hr] at h
  cases h
  rw [State.accept_ready (s := s.addReplies rs) hr]
  exact congrArg Host.Outcome.next (hrun hf rs)

/-- An instruction that leaves a ready machine with a transfer waiting ends the same when the replies come late. -/
theorem exec_patient {s t : State} {i : Instr} (hr : s.ready = true) (h : exec i s = .next t)
    (hf : t.inFlight.isSome = true) (rs : List Reply) : .next (t.addReplies rs).goOn = exec i (s.addReplies rs) := by
  cases instrShape i with
  | clkInit =>
    have hrun : State.Patient (State.issue (clkInitRamXfer s.params) .clkInitRam finishClkInitRam) s.occupy :=
      State.issue_patient _ _ fun ok d _ _ _ => finishClkInitRam_patient (State.answer_inFlight ..) ok d
    exact State.accept_patient hrun hr h hf rs
  | getTime =>
    have hrun : State.Patient (State.issue (getTimeXfer s.params) .getTime finishGetTime) s.occupy :=
      State.issue_patient_once _ (o := .getTime) (by simp)
    exact State.accept_patient hrun hr h hf rs
  | @buffer _ cap len x hi =>
    rw [exec_of_bufferOf hi] at h ⊢
    refine State.accept_patient ?_ hr h hf rs
    cases hl : boundsOk len cap with
    | true =>
      have hrun : State.Patient (State.issue (x s.params) .buffer finishBuffer) s.occupy :=
        State.issue_patient_once _ (o := .buffer) (by simp)
      simp only [State.buffer, hl, if_true]
      exact hrun
    | false =>
      refine State.patient_of_rests ?_
      simpa [State.buffer, hl] using ((State.ready_iff s).1 hr).2
  | @transfer _ x hi =>
    rw [exec_of_transferOf hi] at h ⊢
    have hnone : s.inFlight.isNone = true := by simp [((State.ready_iff s).1 hr).2]
    have hrun : State.Patient (State.issue x .bare finishBare) s := State.issue_patient_once x (o := .bare) (by simp)
    rw [State.bare, if_pos hnone] at h
    rw [State.bare, if_pos (by exact hnone)]
    cases h
    exact congrArg Host.Outcome.next (hrun hf rs)

theorem step_goOn {s : State} (hp : s.powerOn = false) (hf : s.inFlight.isSome = true) : step s = .next s.goOn := by
  obtain ⟨fl, hfl⟩ := Option.isSome_iff_exists.1 hf
  rw [step_resume hp hfl, State.goOn, hfl]

/-- Settles O14: the step that takes the later replies goes on where the instruction stopped. -/
theorem lateReplyEndsTheInstructionTheSame : Obligations.LateReplyEndsTheInstructionTheSame := by
  intro s t i rs hidle _ h hf
  obtain ⟨hp, hb, hnone⟩ := hidle
  calc step (t.addReplies rs) = .next (t.addReplies rs).goOn :=
        step_goOn (s := t.addReplies rs) ((exec_sameHost h).powerOn.trans hp) hf
    _ = exec i (s.addReplies rs) := exec_patient ((State.ready_iff s).2 ⟨hb, hnone⟩) h hf rs

/-! ### The hang (R155) -/

/-- A transfer without a reply goes on to the same state. -/
theorem State.resume_noReply {s : State} (hn : s.NoReply) {fl : InFlight} (hf : s.inFlight = some fl) :
    s.resume fl = s := by
  rw [State.resume, State.await_noReply hn, State.hold, ← hf]

theorem run_succ {s t : State} (h : step s = .next t) (k : Nat) : core.run (k + 1) s = core.run k t := by
  have hcore : core.step s = .next t := h
  simp only [Host.Core.run, hcore]

theorem run_of_step_self {s : State} (h : step s = .next s) (k : Nat) : core.run k s = .next s := by
  induction k with
  | zero => rfl
  | succ k ih => rw [run_succ h, ih]

theorem step_powerOn {s : State} (h : s.powerOn = true) : step s = .next s.powerOnReset := if_pos h

/-- Settles O15: the command in flight goes on to the same state, until the reset event abandons it. -/
theorem waitingCommandHangsUntilReset : Obligations.WaitingCommandHangsUntilReset := by
  intro s hinv hb hp hn
  obtain ⟨-, -, -, hwaits, -⟩ := hinv
  obtain ⟨fl, hf, -⟩ := hwaits.1 hb
  refine ⟨run_of_step_self ?_, _, step_powerOn rfl, rfl, rfl⟩
  rw [step_resume hp hf, State.resume_noReply hn hf]

/-! ### The reset event (R160, R161) -/

/-- Settles O18: the fields are written by the reset event, and abandoning a transfer presents nothing. -/
theorem powerOnIsTheResetEvent : Obligations.PowerOnIsTheResetEvent :=
  fun s h => ⟨_, step_powerOn h, rfl, rfl, rfl, rfl, rfl, rfl, State.abandon_responses { s with draws := s.draws + 1 }⟩

/-- The state in which an abandoned transfer leaves what a failed one leaves, with free values of its own (log entry 15). -/
def State.atReset (s : State) : State := { s with draws := s.draws + 1 }

theorem State.powerOnReset_stores {s : State} {fl : InFlight} (hf : s.inFlight = some fl) :
    s.powerOnReset.clock = (fl.xfer.effect false s.atReset).clock ∧
    s.powerOnReset.nvm = (fl.xfer.effect false s.atReset).nvm := by
  have habandon : s.atReset.abandon = fl.xfer.effect false s.atReset := by
    unfold State.abandon
    rw [show s.atReset.inFlight = some fl from hf]
  rw [← habandon]
  exact ⟨rfl, rfl⟩

theorem State.powerOnReset_stores_none {s : State} (hf : s.inFlight = none) :
    s.powerOnReset.clock = s.clock ∧ s.powerOnReset.nvm = s.nvm := by
  have habandon : s.atReset.abandon = s.atReset := by
    unfold State.abandon
    rw [show s.atReset.inFlight = none from hf]
  have hclock : s.powerOnReset.clock = s.atReset.abandon.clock := rfl
  have hnvm : s.powerOnReset.nvm = s.atReset.abandon.nvm := rfl
  rw [hclock, hnvm, habandon]
  exact ⟨rfl, rfl⟩

/-- The clock device after a transfer is as before, unless the transfer is a write to it (R31, R97). -/
theorem Xfer.effect_clock_cases (x : Xfer) (ok : Bool) (s : State) :
    (x.effect ok s).clock = s.clock ∨
    (x.rnw = false ∧ x.dev = s.params.clkDev ∧ (x.effect ok s).clock = x.clockAfter ok s) := by
  rw [Xfer.effect_clock, Xfer.store_clock]
  split
  · exact .inl rfl
  · split
    · next hr hd => exact .inr ⟨by simpa using hr, hd, rfl⟩
    · exact .inl rfl

/-- A read, or a write of no byte, changes nothing of either device (R96 to R99). -/
theorem Xfer.effect_stores_of_noByte {x : Xfer} (h : x.rnw = true ∨ x.len.toNat = 0) (ok : Bool) (s : State) :
    (x.effect ok s).clock = s.clock ∧ (x.effect ok s).nvm = s.nvm := by
  obtain hr | h0 := h
  · rw [Xfer.effect_read hr]
    exact ⟨rfl, rfl⟩
  · constructor
    · obtain he | ⟨-, -, he⟩ := x.effect_clock_cases ok s
      · exact he
      · rw [he, Xfer.clockAfter_zero h0]
    · obtain he | ⟨-, -, he⟩ := x.effect_nvm_cases ok s
      · exact he
      · rw [he, Xfer.nvmAfter_zero h0]

/-- What a failed or abandoned transfer keeps of the clock device (R31, R32, R96). -/
theorem Xfer.effect_fail_clock {x : Xfer} {s : State} (h : s.StoresOk) :
    (x.effect false s).clock.sec = s.clock.sec ∧ (x.effect false s).clock.min = s.clock.min ∧
    (x.w16 = false →
      (∀ p, s.params.ramBase.toNat + p < x.reg.toNat ∨ x.reg.toNat + x.len.toNat ≤ s.params.ramBase.toNat + p →
        (x.effect false s).clock.ram.read p = s.clock.ram.read p) ∧
      (s.params.ssReg.toNat < x.reg.toNat ∨ x.reg.toNat + x.len.toNat ≤ s.params.ssReg.toNat →
        (x.effect false s).clock.counting = s.clock.counting)) := by
  obtain he | ⟨-, -, he⟩ := x.effect_clock_cases false s
  · rw [he]
    exact ⟨rfl, rfl, fun _ => ⟨fun _ _ => rfl, fun _ => rfl⟩⟩
  · rw [he]
    obtain ⟨hsec, hmin⟩ := x.clockAfter_time false s
    refine ⟨hsec, hmin, fun hw => ?_⟩
    obtain ⟨hram, -, -, hcounting, -⟩ := Xfer.clockAfter_bytes h.params h.ram hw false
    exact ⟨hram, hcounting rfl⟩

/-- A failed or abandoned safe write keeps every NVM byte it does not address (R98, R133). -/
theorem Xfer.effect_fail_nvm {x : Xfer} {s : State} (hw : x.w16 = true)
    (hs : Params.safeWrite s.params x.reg.toNat x.len.toNat = true) :
    Memory.SameOutside s.nvm (x.effect false s).nvm x.reg.toNat x.len.toNat := by
  obtain he | ⟨-, -, he⟩ := x.effect_nvm_cases false s
  · rw [he]
    exact Memory.sameOutside_refl _ _ _
  · rw [he]
    by_cases h0 : x.len.toNat = 0
    · rw [Xfer.nvmAfter_zero h0]
      exact Memory.sameOutside_refl _ _ _
    · rw [Xfer.nvmAfter_safe hw (Nat.pos_of_ne_zero h0) hs]
      simpa using Memory.sameOutside_writeBytes s.nvm x.reg.toNat (freeBytes s.draws x.len.toNat)

theorem Xfer.effect_nvm_of_ne {x : Xfer} {s : State} (hd : x.dev ≠ s.params.nvmDev) (ok : Bool) :
    (x.effect ok s).nvm = s.nvm := by
  obtain he | ⟨-, h, -⟩ := x.effect_nvm_cases ok s
  · exact he
  · exact absurd h hd

/-- Settles O19: an abandoned write leaves what a failed one leaves. -/
theorem powerOnKeepsThePeripherals : Obligations.PowerOnKeepsThePeripherals := by
  intro s t hinv hp h
  rw [step_powerOn hp] at h
  cases h
  constructor
  · intro hnoByte
    cases hf : s.inFlight with
    | none => exact State.powerOnReset_stores_none hf
    | some fl =>
      obtain ⟨hclock, hnvm⟩ := State.powerOnReset_stores hf
      rw [hclock, hnvm]
      exact Xfer.effect_stores_of_noByte (hnoByte fl hf) false s.atReset
  · intro x o hf
    obtain ⟨hclock, hnvm⟩ := State.powerOnReset_stores hf
    rw [hclock, hnvm]
    have hs : s.atReset.StoresOk := ⟨hinv.storesOk.params, hinv.storesOk.ram, hinv.storesOk.nvm⟩
    obtain ⟨hdev, -, -, hss, -⟩ := hs.params
    obtain ⟨hsec, hmin, hbytes⟩ := Xfer.effect_fail_clock (x := x) hs
    obtain ⟨-, -, -, -, howns⟩ := hinv
    have hx := howns _ hf
    refine ⟨hsec, hmin, fun hd => Xfer.effect_clock_of_sparesClock (s := s.atReset) (.inr hd) false,
      fun hd => Xfer.effect_nvm_of_ne (s := s.atReset) hd false,
      fun hw => ⟨fun p _ => (hbytes hw).1 p, (hbytes hw).2⟩,
      fun hw hsafe => Xfer.effect_fail_nvm (s := s.atReset) hw hsafe, ?_, ?_⟩
    · rintro rfl
      obtain rfl : x = clkInitRamXfer s.params := hx
      have hreg : (clkInitRamXfer s.params).reg.toNat = s.atReset.params.ramBase.toNat := zext16_toNat _
      have hlen : (clkInitRamXfer s.params).len.toNat = 56 := rfl
      exact ⟨(hbytes rfl).2 (by omega), Xfer.effect_nvm_of_ne (s := s.atReset) hdev false⟩
    · rintro firstOk rfl
      obtain rfl : x = clkInitStartXfer s.params := hx
      obtain ⟨counting, -, he⟩ := clkInitStart_effect (s := s.atReset) hs.params false
      have hram := congrArg (fun u => u.clock.ram) he
      exact ⟨hram, Xfer.effect_nvm_of_ne (s := s.atReset) hdev false⟩

end Sys2Proof.Machine
end

section
/-! The commands against each other: what each leaves of the devices and of TIME (R25, R118, R134, R171), the data of a
response (R77), the transfers the block emits (R81, R90), and TIME over every step (R24, R113). -/

namespace Sys2Proof.Machine

/-! ### Memories that read the same -/

/-- The first entry of a memory tells it from one that has no entry at that address or below. -/
theorem Memory.ne_read_of_cons {lo size a : Nat} {v : Byte} {m m' : Memory}
    (h : Memory.wfFrom lo size ((a, v) :: m) = true) (h' : Memory.wfFrom (a + 1) size m' = true) :
    m'.read a ≠ Memory.read ((a, v) :: m) a := by
  simp only [Memory.wfFrom, Bool.and_eq_true, decide_eq_true_eq] at h
  obtain ⟨⟨-, hv⟩, -⟩ := h
  rw [Memory.read_below h' (Nat.lt_succ_self a), Memory.read, if_pos rfl]
  exact Ne.symm hv

theorem Memory.eq_of_sameReads {size : Nat} : ∀ {lo : Nat} {m m' : Memory}, Memory.wfFrom lo size m = true →
    Memory.wfFrom lo size m' = true → Memory.SameReads m m' → m = m'
  | _, [], [], _, _, _ => rfl
  | _, (a, v) :: m, [], h, _, hs => absurd (hs a) (Memory.ne_read_of_cons h rfl)
  | _, [], (a, v) :: m', _, h', hs => absurd (hs a).symm (Memory.ne_read_of_cons h' rfl)
  | lo, (a, v) :: m, (a', v') :: m', h, h', hs => by
    have ht := h
    have ht' := h'
    simp only [Memory.wfFrom, Bool.and_eq_true, decide_eq_true_eq] at ht ht'
    obtain ⟨⟨⟨hlo, hsize⟩, hv⟩, htail⟩ := ht
    obtain ⟨⟨⟨hlo', hsize'⟩, hv'⟩, htail'⟩ := ht'
    obtain hlt | rfl | hgt := Nat.lt_trichotomy a a'
    · refine absurd (hs a) (Memory.ne_read_of_cons h ?_)
      simp only [Memory.wfFrom, Bool.and_eq_true, decide_eq_true_eq]
      exact ⟨⟨⟨hlt, hsize'⟩, hv'⟩, htail'⟩
    · have hvv : v' = v := by simpa [Memory.read] using hs a
      rw [hvv, Memory.eq_of_sameReads htail htail' fun p => ?_]
      by_cases hp : p = a
      · rw [hp, Memory.read_below htail (Nat.lt_succ_self a), Memory.read_below htail' (Nat.lt_succ_self a)]
      · simpa [Memory.read, Ne.symm hp] using hs p
    · refine absurd (hs a').symm (Memory.ne_read_of_cons h' ?_)
      simp only [Memory.wfFrom, Bool.and_eq_true, decide_eq_true_eq]
      exact ⟨⟨⟨hgt, hsize⟩, hv⟩, htail⟩

/-- Settles O54, by induction over both lists of entries. -/
theorem canonicalMemoriesAreEqual : Obligations.CanonicalMemoriesAreEqual :=
  fun _ _ _ h h' hs => Memory.eq_of_sameReads h h' hs

/-! ### CLK_INIT twice (R110) -/

/-- Settles O21: both times the RAM is all zero and COUNTING is true, and canonical memories that read the same are equal. -/
theorem clkInitTwiceIsOnce : Obligations.ClkInitTwiceIsOnce := by
  intro s t u r₁ r₂ r₃ r₄ rest hinv hr hrep ho₁ ho₂ ho₃ ho₄ hst htu
  obtain ⟨ram, counting, hram, hcnt, he⟩ :=
    execClkInit_bothAnswered (ok₁ := true) (ok₂ := true) hinv hr hrep ho₁ ho₂ (.inl rfl)
  have htinv := exec_inv hinv hst
  obtain rfl := Host.Outcome.next.inj (he.symm.trans hst)
  obtain ⟨ram', counting', hram', hcnt', he'⟩ :=
    execClkInit_bothAnswered (ok₁ := true) (ok₂ := true) (rest := rest) htinv hr rfl ho₃ ho₄ (.inl rfl)
  have huinv := exec_inv htinv htu
  obtain rfl := Host.Outcome.next.inj (he'.symm.trans htu)
  refine ⟨?_, (hcnt' rfl).trans (hcnt rfl).symm, rfl⟩
  refine canonicalMemoriesAreEqual _ _ _ huinv.storesOk.ram htinv.storesOk.ram fun p => ?_
  by_cases hp : p < 56
  · exact (hram rfl p hp).trans (hram' rfl p hp).symm
  · rw [Memory.read_above htinv.storesOk.ram (Nat.le_of_not_lt hp),
      Memory.read_above huinv.storesOk.ram (Nat.le_of_not_lt hp)]

/-! ### A GET_TIME keeps nothing of the old TIME (R117) -/

/-- GET_TIME answered, in terms of what it does with the answer. -/
theorem execGetTime_finishes {s : State} (hr : s.ready = true) {r : Reply} {rest : List Reply} {ok : Bool}
    (h : s.replies = r :: rest) (ho : r.outcome = if ok then .ok else .fail) :
    exec .getTime s = .next (finishGetTime ok ((getTimeXfer s.params).data ok (s.atAnswer (getTimeXfer s.params) r rest))
      { s.atAnswer (getTimeXfer s.params) r rest with
        returned := s.returned ++
          [{ ok := ok, data := (getTimeXfer s.params).data ok (s.atAnswer (getTimeXfer s.params) r rest) }] }) := by
  refine (State.accept_issue_answered hr (fun u => getTimeXfer u.params) _ _ h ho).trans ?_
  rw [State.answer_read rfl]
  rfl

/-- Settles O25: what GET_TIME reads does not depend on TIME and TVALID, and a success overwrites both. -/
theorem getTimeIsFresh : Obligations.GetTimeIsFresh := by
  intro s old v r rest hr hrep
  refine ⟨fun ho => ?_, fun ho => ?_⟩
  · rw [execGetTime_finishes (ok := true) hr hrep ho,
      execGetTime_finishes (s := { s with time := old, tvalid := v }) (ok := true) hr hrep ho]
    rfl
  · exact ⟨_, execGetTime_finishes (s := { s with time := old, tvalid := v }) (ok := false) hr hrep ho, rfl, rfl⟩

/-! ### What a command leaves of the other device (R118, R134, R171) -/

/-- Settles O31: their transfers go to the NVM device, or read. -/
theorem nvmCommandsKeepTheClockDevice : Obligations.NvmCommandsKeepTheClockDevice := by
  intro s t i hc hi h
  have hkept : s.KeepsClockStore t := by
    obtain ⟨off, len, rfl⟩ | ⟨off, len, bs, rfl⟩ := hi
    · exact exec_keepsClockStore hc (by exact trivial) h
    · exact exec_keepsClockStore hc (by exact trivial) h
  exact ⟨hkept.ram, hkept.counting⟩

theorem Xfer.effect_nvm_of_toClock {x : Xfer} {s : State} (hd : x.dev = s.params.clkDev) (ok : Bool) :
    (x.effect ok s).nvm = s.nvm := by
  simp [hd]

theorem State.accept_buffer_nvm_of_toClock {s t : State} {cap : Nat} {len : Length} (x : State → Xfer)
    (hd : (x s.occupy).dev = s.params.clkDev) (h : s.accept (fun s => s.buffer cap len (x s)) = .next t) :
    t.nvm = s.nvm := by
  refine State.accept_keeps (P := fun u => u.nvm = s.nvm) h rfl fun hr => ?_
  obtain ⟨-, rfl⟩ | ⟨-, -, rfl⟩ | ⟨-, r, rest, ok, -, -, rfl⟩ := State.accept_buffer_cases hr x h
  · rfl
  · rfl
  · exact Xfer.effect_nvm_of_toClock (s := s.atAnswer _ r rest) hd ok

/-- Settles O32: their transfers go to the clock device. -/
theorem clockCommandsKeepTheNvm : Obligations.ClockCommandsKeepTheNvm := by
  intro s t i hi h
  obtain rfl | rfl | ⟨len, rfl⟩ | ⟨len, bs, rfl⟩ := hi
  · refine State.accept_keeps (P := fun u => u.nvm = s.nvm) h rfl fun hr => ?_
    obtain ⟨-, rfl⟩ | ⟨_, _, _, -, rfl⟩ | ⟨_, _, _, _, rfl⟩ | ⟨_, _, _, _, _, rfl⟩ := execClkInit_cases hr h
    all_goals rfl
  · refine State.accept_keeps (P := fun u => u.nvm = s.nvm) h rfl fun hr => ?_
    obtain ⟨-, rfl⟩ | ⟨_, _, _, -, -, -, rfl⟩ | ⟨_, _, -, -, rfl⟩ := execGetTime_cases hr h
    all_goals rfl
  · exact State.accept_buffer_nvm_of_toClock (fun u => ramGetXfer u.params len) rfl h
  · exact State.accept_buffer_nvm_of_toClock (fun u => ramSetXfer u.params len bs) rfl h

/-- Settles O33: a length that passes is at most 55. -/
theorem ramByte55IsOutOfReach : Obligations.RamByte55IsOutOfReach := by
  intro s t len hinv hr
  constructor
  · intro bs hb h
    obtain ⟨-, rfl⟩ | ⟨-, -, rfl⟩ | ⟨hl, r, rest, ok, hrep, ho, -⟩ :=
      State.accept_buffer_cases hr (fun u => ramSetXfer u.params len bs) h
    · rfl
    · rfl
    · obtain ⟨stored, hlen, -, he⟩ := execRamSet_answered hinv.storesOk.params hr hb hl hrep ho
      obtain rfl := Host.Outcome.next.inj (he.symm.trans h)
      have hcap : len.toNat < 56 := hl
      exact Memory.read_writeBytes_outside stored _ 0 (by omega)
  · intro d h hd
    obtain ⟨hl, -⟩ := State.accept_buffer_responds_ok hr (fun u => ramGetXfer u.params len) h hd
    have hcap : len.toNat < 56 := hl
    obtain rfl := execRamGet_responds_ok hr h hd
    refine ⟨by rw [Memory.readBytes_length]; omega, fun i hi => ?_⟩
    rw [Memory.readBytes_length] at hi
    rw [Memory.readBytes_getElem? _ _ _ _ hi, Nat.zero_add]

/-! ### The data of a response (R77) -/

theorem Xfer.fetch_length (x : Xfer) (s : State) : (x.fetch s).length = x.len.toNat := by
  unfold Xfer.fetch
  split
  · simp [ClockDevice.read]
  · split
    · exact nvmRead_length _ _ _ _
    · exact freeBytes_length _ _

/-- A transfer hands back as many bytes as LEN says for a read that succeeds, else none (R95). -/
theorem Xfer.data_length (x : Xfer) (ok : Bool) (s : State) :
    (x.data ok s).length = if ok = true ∧ x.rnw = true then x.len.toNat else 0 := by
  cases ok <;> cases hr : x.rnw <;> simp [Xfer.data, hr, x.fetch_length]

theorem bufferOf_dataLength {i : Instr} {cap : Nat} {len : Length} {x : Params → Xfer}
    (hi : bufferOf i = some (cap, len, x)) (p : Params) (s : State) : ((x p).data true s).length = i.dataLength := by
  rw [Xfer.data_length]
  cases i <;> cases hi <;> rfl

/-- Settles O40: the response of a buffer command carries the data of its transfer, any other none. -/
theorem responseDataIsForReads : Obligations.ResponseDataIsForReads := by
  intro s t i resp _ hp hr h hresp
  have only {q : Response} (hq : s.responses ++ [q] = s.responses ++ [resp]) : resp = q :=
    (List.singleton_inj.1 (List.append_cancel_left hq)).symm
  cases instrShape i with
  | clkInit =>
    obtain ⟨-, rfl⟩ | ⟨_, _, _, -, rfl⟩ | ⟨_, _, _, _, rfl⟩ | ⟨_, _, _, _, _, rfl⟩ := execClkInit_cases hr h
    · simp at hresp
    · exact only hresp ▸ ⟨fun _ => rfl, fun _ => rfl⟩
    · simp at hresp
    · exact only hresp ▸ ⟨fun _ => rfl, fun _ => rfl⟩
  | getTime =>
    obtain ⟨-, rfl⟩ | ⟨_, _, _, -, -, -, rfl⟩ | ⟨_, _, -, -, rfl⟩ := execGetTime_cases hr h
    · simp at hresp
    · exact only hresp ▸ ⟨fun _ => rfl, fun _ => rfl⟩
    · exact only hresp ▸ ⟨fun _ => rfl, fun _ => rfl⟩
  | buffer hi =>
    rw [exec_of_bufferOf hi] at h
    obtain ⟨-, rfl⟩ | ⟨-, -, rfl⟩ | ⟨-, r, rest, ok, -, -, rfl⟩ := State.accept_buffer_cases hr _ h
    · exact only hresp ▸ ⟨by simp, fun _ => rfl⟩
    · simp at hresp
    · rw [only hresp]
      cases ok with
      | true => exact ⟨fun _ => bufferOf_dataLength hi _ _, by simp⟩
      | false => exact ⟨by simp, fun _ => Xfer.data_fail _ _⟩
  | transfer hi => simp [transferOf_port hi] at hp

/-! ### The transfers the block emits (R81, R90) -/

/-- Settles O45: the fields are written in the seven definitions. -/
theorem decodeTableFields : Obligations.DecodeTableFields := by
  intro p off len bs
  have hram : (zext16 p.ramBase).toNat = p.ramBase.toNat := zext16_toNat _
  have hss : (zext16 p.ssReg).toNat = p.ssReg.toNat := zext16_toNat _
  simp [clkInitRamXfer, clkInitStartXfer, ramGetXfer, ramSetXfer, getTimeXfer, nvmGetXfer, nvmSetXfer, clockXfer, nvmXfer,
    hram, hss, Config.ramCap, Config.initSsLen, Config.timeLen]

/-- The device and the pointer width of a transfer go together, an 8-bit pointer having its high byte zero (R81, R92). -/
def Xfer.FitsDevice (p : Params) (x : Xfer) : Prop :=
  (x.w16 = false → x.dev = p.clkDev ∧ x.reg.toNat < 256) ∧ (x.w16 = true → x.dev = p.nvmDev)

theorem clockXfer_fitsDevice (p : Params) (rnw : Bool) (c : Pointer8) (len : Length) (bs : List Byte) :
    (clockXfer p rnw c len bs).FitsDevice p :=
  ⟨fun _ => ⟨rfl, (zext16_toNat c).trans_lt c.isLt⟩, (nomatch ·)⟩

theorem nvmXfer_fitsDevice (p : Params) (rnw : Bool) (off : Pointer16) (len : Length) (bs : List Byte) :
    (nvmXfer p rnw off len bs).FitsDevice p :=
  ⟨(nomatch ·), fun _ => rfl⟩

theorem Xfer.IsBlockShape.fitsDevice {p : Params} {x : Xfer} (h : x.IsBlockShape p) : x.FitsDevice p := by
  obtain rfl | rfl | rfl | ⟨_, -, rfl⟩ | ⟨_, _, -, rfl⟩ | ⟨_, _, -, rfl⟩ | ⟨_, _, _, -, rfl⟩ := h
  · exact clockXfer_fitsDevice _ _ _ _ _
  · exact clockXfer_fitsDevice _ _ _ _ _
  · exact clockXfer_fitsDevice _ _ _ _ _
  · exact clockXfer_fitsDevice _ _ _ _ _
  · exact clockXfer_fitsDevice _ _ _ _ _
  · exact nvmXfer_fitsDevice _ _ _ _ _
  · exact nvmXfer_fitsDevice _ _ _ _ _

/-- From `s` to `t` the block emits at most two transfers, each of one of the seven shapes. -/
def State.EmitsShapes (s t : State) : Prop :=
  ∃ new : List Xfer, t.issued = s.issued ++ new ∧ new.length ≤ 2 ∧ ∀ x ∈ new, x.IsBlockShape s.params

theorem exec_emitsShapes {s t : State} {i : Instr} (hp : i.port = .command) (hr : s.ready = true)
    (h : exec i s = .next t) : s.EmitsShapes t := by
  have ram : (clkInitRamXfer s.params).IsBlockShape s.params := .inl rfl
  have start : (clkInitStartXfer s.params).IsBlockShape s.params := .inr (.inl rfl)
  cases instrShape i with
  | clkInit =>
    obtain ⟨-, rfl⟩ | ⟨_, _, _, -, rfl⟩ | ⟨_, _, _, _, rfl⟩ | ⟨_, _, _, _, _, rfl⟩ := execClkInit_cases hr h
    · exact ⟨_, rfl, by simp, by simpa using ram⟩
    · exact ⟨_, rfl, by simp, by simpa using ram⟩
    · exact ⟨_, rfl, by simp, by simpa using ⟨ram, start⟩⟩
    · exact ⟨_, rfl, by simp, by simpa using ⟨ram, start⟩⟩
  | getTime =>
    have shape : (getTimeXfer s.params).IsBlockShape s.params := .inr (.inr (.inl rfl))
    obtain ⟨-, rfl⟩ | ⟨_, _, _, -, -, -, rfl⟩ | ⟨_, _, -, -, rfl⟩ := execGetTime_cases hr h
    all_goals exact ⟨_, rfl, by simp, by simpa using shape⟩
  | buffer hi =>
    rw [exec_of_bufferOf hi] at h
    obtain ⟨-, rfl⟩ | ⟨hl, -, rfl⟩ | ⟨hl, _, _, _, -, -, rfl⟩ := State.accept_buffer_cases hr _ h
    · exact ⟨[], by simp, by simp, by simp⟩
    all_goals
      have shape : Xfer.IsBlockShape s.params _ := .inr (.inr (.inr (bufferOf_owns hi hl s.params)))
      exact ⟨_, rfl, by simp, by simpa using shape⟩
  | transfer hi => simp [transferOf_port hi] at hp

/-- Settles O44: the device and the width are the shape's. -/
theorem blockEmitsOnlySevenShapes : Obligations.BlockEmitsOnlySevenShapes := by
  intro s t i hp hr h
  obtain ⟨new, hnew, hlen, hshape⟩ := exec_emitsShapes hp hr h
  exact ⟨new, hnew, hlen, fun x hx => ⟨hshape x hx, (hshape x hx).fitsDevice⟩⟩

/-! ### TIME and TVALID (R24, R25, R113) -/

/-- `t` has the TIME and the TVALID of `s`. -/
def State.SameTime (s t : State) : Prop := t.time = s.time ∧ t.tvalid = s.tvalid

/-- Settles O42: no other meaning writes the two fields. -/
theorem onlyGetTimeWritesTime : Obligations.OnlyGetTimeWritesTime := by
  intro s t i hne h
  cases instrShape i with
  | clkInit =>
    refine State.accept_keeps (P := s.SameTime) h ⟨rfl, rfl⟩ fun hr => ?_
    obtain ⟨-, rfl⟩ | ⟨_, _, _, -, rfl⟩ | ⟨_, _, _, _, rfl⟩ | ⟨_, _, _, _, _, rfl⟩ := execClkInit_cases hr h
    all_goals exact ⟨rfl, rfl⟩
  | getTime => exact absurd rfl hne
  | buffer hi =>
    rw [exec_of_bufferOf hi] at h
    refine State.accept_keeps (P := s.SameTime) h ⟨rfl, rfl⟩ fun hr => ?_
    obtain ⟨-, rfl⟩ | ⟨-, -, rfl⟩ | ⟨-, _, _, _, -, -, rfl⟩ := State.accept_buffer_cases hr _ h
    all_goals exact ⟨rfl, rfl⟩
  | transfer hi =>
    rw [exec_of_transferOf hi] at h
    obtain ⟨-, rfl⟩ | ⟨-, -, rfl⟩ | ⟨-, _, _, _, -, -, rfl⟩ := State.bare_cases _ h
    all_goals exact ⟨rfl, rfl⟩

theorem State.await_sameTime {x : Xfer} {o : Owner} {fin : Bool → List Byte → State → State}
    (hfin : ∀ ok d u, State.SameTime u (fin ok d u)) (s : State) : s.SameTime (s.await x o fin) := by
  refine State.await_keeps (P := s.SameTime) ⟨rfl, rfl⟩ fun r rest ok d _ => ?_
  obtain ⟨htime, htvalid⟩ := hfin ok d (s.answer x r rest ok)
  exact ⟨htime.trans (State.answer_time ..), htvalid.trans (State.answer_tvalid ..)⟩

theorem Owner.finish_sameTime {o : Owner} (ho : o ≠ .getTime) (ok : Bool) (d : List Byte) (s : State) :
    s.SameTime (o.finish ok d s) := by
  have start (firstOk ok : Bool) (d : List Byte) (s : State) : s.SameTime (finishClkInitStart firstOk ok d s) := by
    cases firstOk <;> cases ok <;> exact ⟨rfl, rfl⟩
  cases o with
  | getTime => exact absurd rfl ho
  | bare => exact ⟨rfl, rfl⟩
  | clkInitStart firstOk => exact start firstOk ok d s
  | buffer => cases ok <;> exact ⟨rfl, rfl⟩
  | clkInitRam =>
    simp only [Owner.finish, finishClkInitRam]
    split
    · exact ⟨rfl, rfl⟩
    · exact State.await_sameTime (start ok) (s.handOver _)

/-- What running a GET_TIME makes of TIME, TVALID and the responses, given what the bus answers (R113). -/
structure State.TakesTime (s t : State) : Prop where
  noReply : s.NoReply → s.SameTime t
  answered : ∀ r rest ok, s.replies = r :: rest → r.outcome = (if ok then .ok else .fail) →
    t.time = (if ok then TimeReg.ofBytes r.sec r.min else s.time) ∧ t.tvalid = ok ∧
    t.responses = s.responses ++ [{ status := if ok then .ok else .transportErr, data := [] }]

theorem execGetTime_takesTime {s t : State} (hc : s.params.Ok) (hr : s.ready = true) (h : exec .getTime s = .next t) :
    s.TakesTime t := by
  constructor
  · intro hn
    obtain rfl := Host.Outcome.next.inj
      (h.symm.trans (State.accept_issue_noReply hr hn (fun u => getTimeXfer u.params) _ _))
    exact ⟨rfl, rfl⟩
  · intro r rest ok hrep ho
    obtain rfl := Host.Outcome.next.inj (h.symm.trans (execGetTime_answered hc hr hrep ho))
    exact ⟨rfl, rfl, rfl⟩

theorem State.resume_takesTime {s : State} (hc : s.params.Ok) :
    s.TakesTime (s.resume { xfer := getTimeXfer s.params, owner := .getTime }) := by
  constructor
  · intro hn
    rw [State.resume, State.await_noReply hn]
    exact ⟨rfl, rfl⟩
  · intro r rest ok hrep ho
    have hdata : (getTimeXfer s.params).data true (s.receive r rest) = [r.sec, r.min] :=
      getTimeXfer_data (s := s.receive r rest) hc
    cases ok with
    | true =>
      rw [State.resume, State.await_ok hrep ho, hdata, State.answer_read rfl]
      exact ⟨rfl, rfl, rfl⟩
    | false =>
      rw [State.resume, State.await_fail hrep ho, State.answer_read rfl]
      exact ⟨rfl, rfl, rfl⟩

theorem State.runsGetTime_iff_of_inFlight {s : State} {x : Xfer} {o : Owner}
    (hf : s.inFlight = some { xfer := x, owner := o }) : s.RunsGetTime ↔ o = .getTime := by
  simp [State.RunsGetTime, hf]

theorem State.runsGetTime_iff_of_idle {s : State} (h : s.Idle) :
    s.RunsGetTime ↔ s.descriptors = [] ∧ ∃ rest, decodeCommand s.commands = .ok (.getTime, rest) := by
  have hwaits : ¬ ∃ x, s.inFlight = some { xfer := x, owner := .getTime } := by
    obtain ⟨-, -, hf⟩ := h
    simp [hf]
  rw [State.RunsGetTime, or_iff_left hwaits, and_iff_right h]

/-- A step that goes on with a transfer runs a GET_TIME if one waits, else leaves TIME and TVALID alone. -/
theorem State.resume_time_cases {s : State} (hinv : s.Inv) {fl : InFlight} (hf : s.inFlight = some fl) :
    (s.RunsGetTime ∧ s.TakesTime (s.resume fl)) ∨ (¬ s.RunsGetTime ∧ s.SameTime (s.resume fl)) := by
  obtain ⟨x, o⟩ := fl
  rw [State.runsGetTime_iff_of_inFlight hf]
  by_cases ho : o = .getTime
  · subst ho
    obtain ⟨hc, -, -, -, howns⟩ := hinv
    obtain rfl : x = getTimeXfer s.params := howns _ hf
    exact .inl ⟨rfl, State.resume_takesTime hc⟩
  · exact .inr ⟨ho, State.await_sameTime (Owner.finish_sameTime ho) s⟩

/-- A step that runs the word at the head of a stream. -/
theorem exec_fetched_time_cases {s s' t : State} {i : Instr} (hc : s.params.Ok) (hidle : s.Idle)
    (hfetch : s.fetch = some (.ok (i, s'))) (h : exec i s' = .next t) :
    (s.RunsGetTime ∧ s.TakesTime t) ∨ (¬ s.RunsGetTime ∧ s.SameTime t) := by
  rw [State.runsGetTime_iff_of_idle hidle]
  obtain ⟨-, hb, hf⟩ := hidle
  obtain ⟨rest, hdec, rfl⟩ | ⟨rest, hd, hdec, rfl⟩ := State.fetch_ok_cases hfetch
  · refine .inr ⟨fun ⟨hd, _⟩ => ?_, onlyGetTimeWritesTime { s with descriptors := rest } t i ?_ h⟩
    · rw [hd] at hdec
      cases hdec
    · rintro rfl
      cases (decodeDescriptor_ok hdec).port
  · by_cases hi : i = .getTime
    · subst hi
      obtain ⟨hnone, hans⟩ :=
        execGetTime_takesTime (s := { s with commands := rest }) hc ((State.ready_iff _).2 ⟨hb, hf⟩) h
      exact .inl ⟨⟨hd, rest, hdec⟩, hnone, hans⟩
    · refine .inr ⟨fun ⟨_, rest', hdec'⟩ => ?_, onlyGetTimeWritesTime { s with commands := rest } t i hi h⟩
      rw [hdec] at hdec'
      cases hdec'
      exact hi rfl

/-- A step other than the reset event either runs a GET_TIME or leaves TIME and TVALID alone. -/
theorem step_time_cases {s t : State} (hinv : s.Inv) (hp : s.powerOn = false) (h : step s = .next t) :
    (s.RunsGetTime ∧ s.TakesTime t) ∨ (¬ s.RunsGetTime ∧ s.SameTime t) := by
  cases hf : s.inFlight with
  | some fl =>
    obtain rfl := Host.Outcome.next.inj ((step_resume hp hf).symm.trans h)
    exact State.resume_time_cases hinv hf
  | none =>
    have hidle : s.Idle := ⟨hp, hinv.busy_of_noneInFlight hf, hf⟩
    cases hfetch : s.fetch with
    | none =>
      obtain rfl := Host.Outcome.next.inj ((step_nothing hidle hfetch).symm.trans h)
      rw [State.runsGetTime_iff_of_idle hidle]
      refine .inr ⟨fun ⟨hd, rest, hdec⟩ => ?_, ⟨rfl, rfl⟩⟩
      simp [State.fetch_command hd hdec] at hfetch
    | some word =>
      cases word with
      | error e => simp [step_reserved hidle hfetch] at h
      | ok fetched =>
        obtain ⟨i, s'⟩ := fetched
        rw [step_fetched hidle hfetch] at h
        exact exec_fetched_time_cases hinv.storesOk.params hidle hfetch h

/-- Settles O43: the digits are those BcdSplit takes of the two bytes of the reply. -/
theorem timeChangesOnlyBySuccess : Obligations.TimeChangesOnlyBySuccess := by
  intro s t hinv hp h
  obtain ⟨hruns, htakes⟩ | ⟨hruns, hsame⟩ := step_time_cases hinv hp h
  · refine ⟨fun hkept => htakes.noReply (hkept.resolve_left (not_not_intro hruns)), fun _ r rest hrep => ⟨fun ho => ?_,
      fun ho => htakes.answered r rest false hrep ho⟩⟩
    obtain ⟨htime, htvalid, hresp⟩ := htakes.answered r rest true hrep ho
    obtain ⟨hst, hso⟩ := bcdSplitTakesTheDigits r.sec
    obtain ⟨hmt, hmo⟩ := bcdSplitTakesTheDigits r.min
    rw [htime]
    exact ⟨hst, hso, hmt, hmo, htvalid, hresp⟩
  · exact ⟨fun _ => hsame, fun h => absurd h hruns⟩

end Sys2Proof.Machine
end

section
/-! The four transfers run by themselves (R95 to R99, R104): what each reads, writes and leaves, and that nothing but its own
device is touched. -/

namespace Sys2Proof.Machine

/-! ### A transfer run by itself, given what the bus answers -/

/-- Settles O46: a bare transfer's next state updates none of these fields. -/
theorem transfersWriteNoFlag : Obligations.TransfersWriteNoFlag := by
  intro s t i hp h
  obtain ⟨x, hx⟩ := transferOf_of_port hp
  rw [exec_of_transferOf hx] at h
  obtain ⟨-, rfl⟩ | ⟨-, -, rfl⟩ | ⟨-, _, _, _, -, -, rfl⟩ := State.bare_cases x h
  all_goals exact ⟨rfl, rfl, rfl, rfl, rfl, rfl, rfl, rfl, rfl⟩

/-- The state in which the answer to a transfer run by itself takes effect. -/
def State.atBareAnswer (x : Xfer) (r : Reply) (rest : List Reply) (s : State) : State := (s.handOver x).receive r rest

section answered

variable {s : State} {x : Xfer} {r : Reply} {rest : List Reply} {ok : Bool}

/-- A read run by itself, answered: the devices keep all but the running counter (R97, R99). -/
theorem State.bare_read_answered (hf : s.inFlight = none) (hx : x.rnw = true) (h : s.replies = r :: rest)
    (ho : r.outcome = if ok then .ok else .fail) :
    s.bare x = .next { s with
      clock := { s.clock with sec := r.sec, min := r.min }
      replies := rest, draws := s.draws + 1
      issued := s.issued ++ [x]
      returned := s.returned ++ [{ ok := ok, data := x.data ok (s.atBareAnswer x r rest) }] } := by
  rw [State.bare_answered hf x h ho, Xfer.effect_read hx]
  rfl

/-- A write to the clock device run by itself, answered (R96). -/
theorem State.bare_toClock_answered (hf : s.inFlight = none) (hx : x.rnw = false) (hd : x.dev = s.params.clkDev)
    (h : s.replies = r :: rest) (ho : r.outcome = if ok then .ok else .fail) :
    s.bare x = .next { s with
      clock :=
        { ram := (x.clockAfter ok (s.atBareAnswer x r rest)).ram, sec := r.sec, min := r.min
          counting := (x.clockAfter ok (s.atBareAnswer x r rest)).counting }
      replies := rest, draws := s.draws + 1
      issued := s.issued ++ [x]
      returned := s.returned ++ [{ ok := ok, data := [] }] } := by
  have htime := x.clockAfter_time ok (s.atBareAnswer x r rest)
  obtain ⟨hsec, hmin⟩ : _ = r.sec ∧ _ = r.min := htime
  rw [State.bare_answered hf x h ho, Xfer.effect_toClock (s := (s.handOver x).receive r rest) hx hd, Xfer.data_write hx,
    ← hsec, ← hmin]
  rfl

/-- A write to the NVM device run by itself, answered (R98). -/
theorem State.bare_toNvm_answered (hc : s.params.Ok) (hf : s.inFlight = none) (hx : x.rnw = false)
    (hd : x.dev = s.params.nvmDev) (h : s.replies = r :: rest) (ho : r.outcome = if ok then .ok else .fail) :
    s.bare x = .next { s with
      clock := { s.clock with sec := r.sec, min := r.min }
      nvm := x.nvmAfter ok (s.atBareAnswer x r rest)
      replies := rest, draws := s.draws + 1
      issued := s.issued ++ [x]
      returned := s.returned ++ [{ ok := ok, data := [] }] } := by
  rw [State.bare_answered hf x h ho, Xfer.effect_toNvm (s := (s.handOver x).receive r rest) hc hx hd,
    Xfer.data_write hx]
  rfl

end answered

/-! ### The clock device (R96, R97) -/

/-- Settles O47: byte by byte, with the pointers counted without wrap. -/
theorem xferW8WritesTheClockDevice : Obligations.XferW8WritesTheClockDevice := by
  intro s reg len bs hinv hf hb
  have hs := hinv.storesOk
  have hreg : (xferW8Xfer s.params.clkDev reg len bs).reg.toNat = reg.toNat := zext16_toNat reg
  have hbytes (r : Reply) (rest : List Reply) := Xfer.clockAfter_bytes (x := xferW8Xfer s.params.clkDev reg len bs)
    (s := s.atBareAnswer (xferW8Xfer s.params.clkDev reg len bs) r rest) hs.params hs.ram rfl
  rw [hreg] at hbytes
  refine ⟨?ok, ?fail, State.bare_noReply hf _⟩
  case ok =>
    intro r rest h ho
    obtain ⟨hout, hin, hkept, -, hstart⟩ := hbytes r rest true
    exact ⟨_, State.bare_toClock_answered (ok := true) hf rfl rfl h ho, hin rfl hb, fun p _ => hout p, hkept,
      hstart rfl hb, rfl⟩
  case fail =>
    intro r rest h ho
    obtain ⟨hout, -, -, hkept, -⟩ := hbytes r rest false
    exact ⟨_, State.bare_toClock_answered (ok := false) hf rfl rfl h ho, fun p _ => hout p, hkept rfl, rfl⟩

section byteAt

variable {c : Params} (d : ClockDevice) (k : Nat)

theorem ClockDevice.byteAt_inRam {p : Nat} (h : Params.inRam c p = true) :
    d.byteAt c k p = d.ram.read (p - c.ramBase.toNat) := if_pos h

theorem ClockDevice.byteAt_ssReg (hc : c.Ok) : d.byteAt c k c.ssReg.toNat = d.sec := by
  rw [ClockDevice.byteAt, if_neg (Params.inRam_ssReg hc), if_pos rfl]

theorem ClockDevice.byteAt_ssReg_succ (hc : c.Ok) : d.byteAt c k (c.ssReg.toNat + 1) = d.min := by
  obtain ⟨-, -, -, -, hout, -⟩ := hc
  rw [← Params.inRam_iff] at hout
  rw [ClockDevice.byteAt, if_neg hout, if_neg (by omega), if_pos rfl]

end byteAt

/-- Settles O48: the bytes of a read, pointer by pointer. -/
theorem xferR8ReadsTheClockDevice : Obligations.XferR8ReadsTheClockDevice := by
  intro s reg len hc hf
  refine ⟨?ok, ?fail, State.bare_noReply hf _⟩
  case ok =>
    intro r rest h ho
    have hdata : (xferR8Xfer s.params.clkDev reg len).data true
          (s.atBareAnswer (xferR8Xfer s.params.clkDev reg len) r rest) =
        ClockDevice.read { s.clock with sec := r.sec, min := r.min } s.params (s.draws + 1) reg.toNat len.toNat := by
      rw [← zext16_toNat reg]
      exact Xfer.fetch_clock (x := xferR8Xfer s.params.clkDev reg len) rfl rfl
    refine ⟨_, ?_, fun i hi => ?_, State.bare_read_answered (ok := true) hf rfl h ho⟩
    · rw [Xfer.data_length]
      rfl
    · rw [hdata, ClockDevice.read_getElem? _ _ _ _ _ _ hi]
      refine ⟨fun hlo hhi => ?_, fun hss => ?_, fun hss => ?_⟩
      · rw [ClockDevice.byteAt_inRam _ _ ((Params.inRam_iff _ _).2 ⟨hlo, hhi⟩)]
      · rw [hss, ClockDevice.byteAt_ssReg _ _ hc]
      · rw [hss, ClockDevice.byteAt_ssReg_succ _ _ hc]
  case fail =>
    intro r rest h ho
    exact State.bare_read_answered (ok := false) hf rfl h ho

/-! ### The NVM device (R98, R99) -/

/-- Settles O49: a safe write leaves some bytes where it addressed, its payload when it succeeds. -/
theorem xferW16WritesTheNvmDevice : Obligations.XferW16WritesTheNvmDevice := by
  intro s reg len bs hinv hf hb
  have hs := hinv.storesOk
  have hstored (r : Reply) (rest : List Reply) (hsafe : Params.safeWrite s.params reg.toNat len.toNat = true) :=
    Xfer.nvmAfter_stored (x := xferW16Xfer s.params.nvmDev reg len bs)
      (s := s.atBareAnswer (xferW16Xfer s.params.nvmDev reg len bs) r rest) rfl hb (.inr hsafe)
  refine ⟨?ok, ?fail, State.bare_noReply hf _⟩
  case ok =>
    intro r rest h ho
    refine ⟨_, State.bare_toNvm_answered (ok := true) hs.params hf rfl rfl h ho,
      fun h0 => Xfer.nvmAfter_zero h0 _ _, fun _ hsafe => ?_, rfl⟩
    obtain ⟨stored, -, hok, he⟩ := hstored r rest hsafe true
    obtain rfl : stored = bs := hok rfl
    have hrange := ((Params.safeWrite_iff _ _ _).1 hsafe).1
    dsimp only
    rw [he]
    refine ⟨fun i hi => ?_, fun p hp => Memory.read_writeBytes_outside stored _ _ (by rwa [hb])⟩
    have hin : i < stored.length := by rwa [hb]
    rw [List.getElem?_eq_getElem hin]
    exact congrArg some (Memory.read_writeBytes_inside stored hs.nvm (by rwa [hb]) i hin).symm
  case fail =>
    intro r rest h ho
    refine ⟨_, State.bare_toNvm_answered (ok := false) hs.params hf rfl rfl h ho,
      fun h0 => Xfer.nvmAfter_zero h0 _ _, fun _ hsafe => ?_, rfl⟩
    obtain ⟨stored, hlen, -, he⟩ := hstored r rest hsafe false
    dsimp only
    rw [he]
    exact fun p hp => Memory.read_writeBytes_outside stored _ _ (by rwa [hlen])

/-- Settles O50: what a successful read hands back is MemRead of the NVM. -/
theorem xferR16ReadsTheNvmDevice : Obligations.XferR16ReadsTheNvmDevice := by
  intro s reg len _ hf
  refine ⟨?ok, ?fail, State.bare_noReply hf _⟩
  case ok =>
    intro r rest h ho
    have hdata : (xferR16Xfer s.params.nvmDev reg len).data true
          (s.atBareAnswer (xferR16Xfer s.params.nvmDev reg len) r rest) =
        nvmRead s.nvm (s.draws + 1) reg.toNat len.toNat :=
      Xfer.fetch_nvm (x := xferR16Xfer s.params.nvmDev reg len) rfl rfl
    refine ⟨_, ?_, fun hin i hi => ?_, State.bare_read_answered (ok := true) hf rfl h ho⟩
    · rw [Xfer.data_length]
      rfl
    · rw [hdata, nvmRead_inRange hin, Memory.readBytes_getElem? _ _ _ _ hi]
  case fail =>
    intro r rest h ho
    exact State.bare_read_answered (ok := false) hf rfl h ho

/-! ### Any identity (R31, R33, R95) -/

theorem Reply.exists_ok {r : Reply} (h : r.outcome ≠ .never) : ∃ ok : Bool, r.outcome = if ok then .ok else .fail := by
  cases ho : r.outcome with
  | ok => exact ⟨true, rfl⟩
  | fail => exact ⟨false, rfl⟩
  | never => exact absurd ho h

theorem outcome_eq_ok_iff {r : Reply} {ok : Bool} (ho : r.outcome = if ok then .ok else .fail) :
    r.outcome = .ok ↔ ok = true := by
  cases ok <;> simp [ho]

/-- Settles O51: the answer is the reply's, with as many bytes as a successful read has. -/
theorem transferEndsAsTheBusAnswers : Obligations.TransferEndsAsTheBusAnswers := by
  intro s i x hi hf
  rw [exec_of_transferOf hi]
  refine ⟨fun r rest h hne => ?_, State.bare_noReply hf x⟩
  obtain ⟨ok, ho⟩ := Reply.exists_ok hne
  refine ⟨_, _, State.bare_answered hf x h ho, hf, rfl, rfl, rfl, (outcome_eq_ok_iff ho).symm, ?_⟩
  rw [Xfer.data_length]
  simp only [outcome_eq_ok_iff ho]

/-- What a transfer run by itself keeps of the devices, if its effect keeps it whatever the state and the outcome. -/
theorem State.bare_keepsStores {P : ClockDevice → Memory → Prop} {s t : State} {x : Xfer} (h : s.bare x = .next t)
    (hs : P s.clock s.nvm) (hx : ∀ r rest ok, P (x.effect ok (s.atBareAnswer x r rest)).clock
      (x.effect ok (s.atBareAnswer x r rest)).nvm) : P t.clock t.nvm := by
  obtain ⟨-, rfl⟩ | ⟨-, -, rfl⟩ | ⟨-, r, rest, ok, -, -, rfl⟩ := State.bare_cases x h
  · exact hs
  · exact hs
  · exact hx r rest ok

/-- Settles O52: an effect on a device is a write to it. -/
theorem transferTouchesItsDeviceOnly : Obligations.TransferTouchesItsDeviceOnly := by
  intro s t i x _ hi h
  rw [exec_of_transferOf hi] at h
  refine ⟨fun hx => ?_, fun hx => ?_⟩
  · have hkept := State.bare_keepsClockStore (x := x) hx h
    exact ⟨hkept.ram, hkept.counting⟩
  · refine State.bare_keepsStores (P := fun _ nvm => nvm = s.nvm) h rfl fun r rest ok => ?_
    obtain hr | hd := hx
    · rw [Xfer.effect_read hr]
      rfl
    · exact Xfer.effect_nvm_of_ne (s := s.atBareAnswer x r rest) hd ok

/-- Settles O53: a transfer of no byte has no effect on a device, and its data are as long as LEN. -/
theorem zeroLengthTransfersMoveNothing : Obligations.ZeroLengthTransfersMoveNothing := by
  intro s t i dev reg hi h
  obtain ⟨x, hx, h0⟩ : ∃ x, transferOf i = some x ∧ x.len.toNat = 0 := by
    obtain rfl | rfl | rfl | rfl := hi <;> exact ⟨_, rfl, rfl⟩
  rw [exec_of_transferOf hx] at h
  obtain ⟨hram, hcounting, hnvm⟩ : t.clock.ram = s.clock.ram ∧ t.clock.counting = s.clock.counting ∧ t.nvm = s.nvm := by
    refine State.bare_keepsStores
      (P := fun clock nvm => clock.ram = s.clock.ram ∧ clock.counting = s.clock.counting ∧ nvm = s.nvm) h
      ⟨rfl, rfl, rfl⟩ fun r rest ok => ?_
    obtain ⟨hclock, hnvm⟩ := Xfer.effect_stores_of_noByte (.inr h0) ok (s.atBareAnswer x r rest)
    rw [hclock, hnvm]
    exact ⟨rfl, rfl, rfl⟩
  refine ⟨hram, hcounting, hnvm, ?_⟩
  obtain ⟨-, rfl⟩ | ⟨-, -, rfl⟩ | ⟨-, r, rest, ok, -, -, rfl⟩ := State.bare_cases x h
  · exact .inl rfl
  · exact .inl rfl
  · refine .inr ⟨_, rfl, List.eq_nil_of_length_eq_zero ?_⟩
    rw [Xfer.data_length, h0, ite_self]

end Sys2Proof.Machine
end

section
/-! The reference host (R163 to R165, R168): its transitions, the self-test and one cycle of the poll loop. -/

namespace Sys2Proof.Machine

/-- With nothing left to run a step is the host's turn. -/
theorem step_hostTurn {s : State} (hidle : s.Idle) (hd : s.descriptors = []) (hc : s.commands = []) :
    step s = .next s.sequencerTurn :=
  step_nothing hidle (State.fetch_empty hd hc)

/-- Settles O55: the next state is the table's, and the commands are that state's. -/
theorem sequencerFollowsItsTable : Obligations.SequencerFollowsItsTable := by
  intro s hidle hd hc
  rw [step_hostTurn hidle hd hc]
  refine ⟨fun h => ?_, fun h => ?_, fun h => ?_, ?_⟩
  · simp [State.sequencerTurn, h, SeqState.succ, SeqState.program]
  · simp [State.sequencerTurn, h, SeqState.succ, SeqState.program]
  · simp [State.sequencerTurn, h, SeqState.succ, SeqState.program]
  · rintro (h | h) <;> simp [State.sequencerTurn, h, SeqState.succ, SeqState.program]

theorem run_zero (s : State) : core.run 0 s = .next s := rfl

/-- A step runs the command whose encoding stands at the head of the stream. -/
theorem step_encoded {s : State} {i : Instr} {rest : List Byte} (hidle : s.Idle) (hd : s.descriptors = [])
    (hp : i.port = .command) (hwf : i.wellFormed = true) (hc : s.commands = i.encode ++ rest) :
    step s = exec i { s with commands := rest } := by
  have hdec := decodeOfEncodeIsTheInstruction i rest hwf
  rw [hp, ← hc] at hdec
  exact stepRunsThePresentedCommand s i rest hidle hd hdec

/-! ### The poll loop (R165) -/

/-- Settles O57: the host's turn places GET_TIME, and the next step runs it. -/
theorem pollLoopCycle : Obligations.PollLoopCycle := by
  intro s r rest hc hidle hd hcmd hhost hrep hne
  obtain ⟨ok, ho⟩ := Reply.exists_ok hne
  have hturn : step s = .next { s with host := .pollLoop, commands := Instr.encode .getTime } := by
    obtain ⟨-, -, -, hpoll⟩ := sequencerFollowsItsTable s hidle hd hcmd
    exact hpoll (.inr hhost)
  have hrun := step_encoded (s := { s with host := .pollLoop, commands := Instr.encode .getTime }) (i := .getTime)
    (rest := []) hidle hd rfl rfl (List.append_nil _).symm
  obtain ⟨hp, hb, hf⟩ := hidle
  have hans := execGetTime_answered (s := { s with host := .pollLoop, commands := [] }) hc
    ((State.ready_iff _).2 ⟨hb, hf⟩) hrep ho
  refine ⟨_, ((run_succ hturn 1).trans (run_succ (hrun.trans hans) 0)).trans (run_zero _), ⟨hp, hb, hf⟩, rfl, rfl, rfl,
    rfl, (outcome_eq_ok_iff ho).symm, ?_⟩
  simp only [outcome_eq_ok_iff ho]

/-! ### The self-test (R164, R168) -/

/-- The machine is idle with the host in a given state, and holds the given memories, words still to run, replies to come and
responses. -/
structure State.TestPoint (p : Params) (host : SeqState) (commands : List Byte) (replies : List Reply) (ram nvm : Memory)
    (responses : List Response) (s : State) : Prop where
  idle : s.Idle
  descriptors : s.descriptors = []
  params : s.params = p
  host : s.host = host
  commands : s.commands = commands
  replies : s.replies = replies
  ram : s.clock.ram = ram
  nvm : s.nvm = nvm
  responses : s.responses = responses

section selfTest

variable {p : Params} {host : SeqState} {rest : List Byte} {r : Reply} {rs : List Reply} {ram nvm : Memory}
  {resps : List Response} {s : State} {len : Length} {off : Pointer16} {bs : List Byte}

theorem State.TestPoint.turn (h : s.TestPoint p host [] rs ram nvm resps) :
    ∃ t, step s = .next t ∧
      State.TestPoint p host.succ ((host.succ.program p).flatMap Instr.encode) rs ram nvm resps t := by
  obtain ⟨hidle, hd, rfl, rfl, hc, hrs, hram, hnvm, hresps⟩ := h
  exact ⟨_, step_hostTurn hidle hd hc, hidle, hd, rfl, rfl, rfl, hrs, hram, hnvm, hresps⟩

theorem State.TestPoint.ramSet (h : s.TestPoint p host (Instr.encode (.ramSet len bs) ++ rest) (r :: rs) ram nvm resps)
    (hc : p.Ok) (hb : bs.length = len.toNat) (hl : len.toNat < 56) (ho : r.outcome = .ok) :
    ∃ t, step s = .next t ∧
      State.TestPoint p host rest rs (ram.writeBytes 0 bs) nvm (resps ++ [{ status := .ok, data := [] }]) t := by
  obtain ⟨hidle, hd, rfl, rfl, hcmd, hrs, rfl, rfl, rfl⟩ := h
  rw [step_encoded (i := .ramSet len bs) hidle hd rfl (beq_iff_eq.2 hb) hcmd]
  obtain ⟨hp, hbusy, hf⟩ := hidle
  obtain ⟨stored, -, hok, he⟩ := execRamSet_answered (s := { s with commands := rest }) (ok := true) hc
    ((State.ready_iff _).2 ⟨hbusy, hf⟩) hb hl hrs ho
  obtain rfl := hok rfl
  exact ⟨_, he, ⟨hp, hbusy, hf⟩, hd, rfl, rfl, rfl, rfl, rfl, rfl, rfl⟩

theorem State.TestPoint.nvmSet
    (h : s.TestPoint p host (Instr.encode (.nvmSet off len bs) ++ rest) (r :: rs) ram nvm resps) (hc : p.Ok)
    (hb : bs.length = len.toNat) (hl : len.toNat < 4096) (hsafe : Params.safeWrite p off.toNat len.toNat = true)
    (ho : r.outcome = .ok) :
    ∃ t, step s = .next t ∧
      State.TestPoint p host rest rs ram (nvm.writeBytes off.toNat bs) (resps ++ [{ status := .ok, data := [] }]) t := by
  obtain ⟨hidle, hd, rfl, rfl, hcmd, hrs, rfl, rfl, rfl⟩ := h
  rw [step_encoded (i := .nvmSet off len bs) hidle hd rfl (beq_iff_eq.2 hb) hcmd]
  obtain ⟨hp, hbusy, hf⟩ := hidle
  have he := execNvmSet_answered (s := { s with commands := rest }) (ok := true) hc
    ((State.ready_iff _).2 ⟨hbusy, hf⟩) off bs hl hrs ho
  obtain ⟨stored, -, hok, hnvm⟩ := nvmSetXfer_nvmAfter (s := { s with commands := rest }) hb hsafe r rs true
  obtain rfl := hok rfl
  exact ⟨_, he, ⟨hp, hbusy, hf⟩, hd, rfl, rfl, rfl, rfl, rfl, hnvm, rfl⟩

theorem State.TestPoint.ramGet (h : s.TestPoint p host (Instr.encode (.ramGet len) ++ rest) (r :: rs) ram nvm resps)
    (hl : len.toNat < 56) (ho : r.outcome = .ok) :
    ∃ t, step s = .next t ∧
      State.TestPoint p host rest rs ram nvm (resps ++ [{ status := .ok, data := ram.readBytes 0 len.toNat }]) t := by
  obtain ⟨hidle, hd, rfl, rfl, hcmd, hrs, rfl, rfl, rfl⟩ := h
  rw [step_encoded hidle hd rfl rfl hcmd]
  obtain ⟨hp, hbusy, hf⟩ := hidle
  have hr : State.ready { s with commands := rest } = true := (State.ready_iff _).2 ⟨hbusy, hf⟩
  have he := State.accept_buffer_read_answered (ok := true) (x := fun u => ramGetXfer u.params len) hr rfl hl hrs ho
  have hdata := ramGetXfer_data (s := State.atAnswer (ramGetXfer s.params len) r rs { s with commands := rest }) hl
  exact ⟨_, he, ⟨hp, hbusy, hf⟩, hd, rfl, rfl, rfl, rfl, rfl, rfl,
    congrArg (fun d => s.responses ++ [{ status := .ok, data := d }]) hdata⟩

theorem State.TestPoint.nvmGet
    (h : s.TestPoint p host (Instr.encode (.nvmGet off len) ++ rest) (r :: rs) ram nvm resps)
    (hl : off.toNat + len.toNat < 4096) (ho : r.outcome = .ok) :
    ∃ t, step s = .next t ∧ State.TestPoint p host rest rs ram nvm
      (resps ++ [{ status := .ok, data := nvm.readBytes off.toNat len.toNat }]) t := by
  obtain ⟨hidle, hd, rfl, rfl, hcmd, hrs, rfl, rfl, rfl⟩ := h
  rw [step_encoded hidle hd rfl rfl hcmd]
  obtain ⟨hp, hbusy, hf⟩ := hidle
  have hr : State.ready { s with commands := rest } = true := (State.ready_iff _).2 ⟨hbusy, hf⟩
  have he := State.accept_buffer_read_answered (ok := true) (x := fun u => nvmGetXfer u.params off len) hr rfl
    (show len.toNat < Config.nvmCap by simp only [Config.nvmCap]; omega) hrs ho
  have hdata := (nvmGetXfer_data (State.atAnswer (nvmGetXfer s.params off len) r rs { s with commands := rest })
    off len).trans (nvmRead_inRange (by omega) _ _)
  exact ⟨_, he, ⟨hp, hbusy, hf⟩, hd, rfl, rfl, rfl, rfl, rfl, rfl,
    congrArg (fun d => s.responses ++ [{ status := .ok, data := d }]) hdata⟩

end selfTest

/-- A write of at most 18 bytes from the start of the NVM is safe for every page size R9 allows (R168). -/
theorem safeWrite_first {p : Params} (hc : p.Ok) : Params.safeWrite p 0 18 = true := by
  obtain ⟨-, -, -, -, -, -, hpage, -⟩ := hc
  rw [Params.safeWrite_iff, Nat.div_eq_of_lt (by omega), Nat.div_eq_of_lt (by omega)]
  exact ⟨by decide, rfl⟩

/-- Settles O56: two turns of the host and the four commands they place, one step each. -/
theorem selfTestReadsBackWhatItWrote : Obligations.SelfTestReadsBackWhatItWrote := by
  intro s r₁ r₂ r₃ r₄ rest hinv hidle hd hcmd hhost hrep ho₁ ho₂ ho₃ ho₄
  have hs := hinv.storesOk
  have hc := hs.params
  have hdiag : s.params.diagRam.length < 56 := by
    obtain ⟨-, -, -, -, -, -, -, h⟩ := hc
    exact h
  have hlen : (BitVec.ofNat 16 s.params.diagRam.length).toNat = s.params.diagRam.length := by
    rw [BitVec.toNat_ofNat]
    omega
  have h₀ : s.TestPoint s.params .clockInit [] _ _ _ _ := ⟨hidle, hd, rfl, hhost, hcmd, hrep, rfl, rfl, rfl⟩
  obtain ⟨s₁, e₁, h₁⟩ := h₀.turn
  obtain ⟨s₂, e₂, h₂⟩ := h₁.ramSet hc hlen.symm (by omega) ho₁
  obtain ⟨s₃, e₃, h₃⟩ := h₂.nvmSet (rest := []) hc rfl (by decide) (safeWrite_first hc) ho₂
  obtain ⟨s₄, e₄, h₄⟩ := h₃.turn
  obtain ⟨s₅, e₅, h₅⟩ := h₄.ramGet (by omega) ho₃
  obtain ⟨s₆, e₆, h₆⟩ := h₅.nvmGet (rest := []) (by decide) ho₄
  refine ⟨s₆, ?_, h₆.host, h₆.commands, ?_⟩
  · rw [run_succ e₁, run_succ e₂, run_succ e₃, run_succ e₄, run_succ e₅, run_succ e₆, run_zero]
  · have hram : (s.clock.ram.writeBytes 0 s.params.diagRam).readBytes 0 (BitVec.ofNat 16 s.params.diagRam.length).toNat =
        s.params.diagRam := by
      rw [Memory.readBytes_writeBytes _ hs.ram (by simp only [Config.ramCap]; omega) (Nat.le_of_eq hlen), hlen,
        List.take_length]
    have hnvm : (s.nvm.writeBytes (0 : Pointer16).toNat eepromString).readBytes (0 : Pointer16).toNat
        (18 : Length).toNat = eepromString :=
      Memory.readBytes_writeBytes eepromString hs.nvm (by decide) (by decide)
    rw [h₆.responses, hram, hnvm]
    simp

end Sys2Proof.Machine
end
